-- ==== Sys2Proof/Word.lean ====
section
/-! DEFINITION. The word types of the core: 32-bit words, bytes, and 5-bit register indices
(spec/00_scope.md R9 and R14, spec/30_encoding.md R118). -/

namespace Sys2Proof

/-- `Word32`, a 32-bit bit vector with arithmetic modulo 2^32 (R14). -/
abbrev Word := BitVec 32

/-- One byte of memory, the smallest addressable unit (R9). -/
abbrev Byte := BitVec 8

/-- A register index, a plain 5-bit field in which every value is legal (R118). -/
abbrev RegIdx := BitVec 5

end Sys2Proof
end

