-- ==== Sys2Proof/Config.lean ====
section
/-! DEFINITION. What an implementation or the caller fixes for a run: the instruction kinds (spec/30_encoding.md R130), the
parameters of spec/00_scope.md R10 and R11, and the free values (the predictor's answers, the memory's
latencies and the process status of a fatal end), which have no body. -/

namespace Sys2Proof

/-- The instruction kinds, the source's "instruction-kind tag": the rows of R130, in the table's order. -/
inductive Kind where
  | lui | auipc | jal | jalr
  | beq | bne | blt | bge | bltu | bgeu
  | lb | lh | lw | lbu | lhu
  | sb | sh | sw
  | addi | slti | sltiu | xori | ori | andi | slli | srli | srai
  | add | sub | sll | slt | sltu | xor | srl | sra | or | and
  | ecall
  | fmadd | fmsub | fnmsub | fnmadd
  | mul | mulh | div | rem
  | mulhsu | mulhu | divu | remu
deriving DecidableEq, Repr

/-- `M_SET` (R11, R125): which multiply and divide kinds decode. -/
inductive MSet where
  | core4   -- MUL, MULH, DIV, REM (the default)
  | full8   -- adds MULHSU, MULHU, DIVU, REMU
deriving DecidableEq, Repr

/-- `DIV_CORNER` (R11, R280): what a division corner does. -/
inductive DivCorner where
  | fault   -- raises DivideFault (the default)
  | riscV   -- gives the RISC-V results
deriving DecidableEq, Repr

/-- `MISALIGNED` (R11, R85): what a misaligned access does. -/
inductive Misaligned where
  | fault      -- raises MemoryFault (the default)
  | byteWise   -- is performed byte by byte
deriving DecidableEq, Repr

/-- `SPEC_FAULT` (R11, R323, R324): when a fetch or decode fault is raised. -/
inductive SpecFault where
  | deferred    -- when the record reaches Execute (the default)
  | immediate   -- in the stage that finds it
deriving DecidableEq, Repr

/-- Why the decoder rejects a word (R121). -/
inductive DecodeReason where
  | compressed     -- `inst[1:0]` is not `0b11`
  | unrecognized   -- no row of R130 matches
deriving DecidableEq, Repr

/-- A run of byte addresses `base, …, base + size - 1`. -/
structure AddrRange where
  base : Nat
  size : Nat
deriving DecidableEq, Repr

/-- The configuration inputs (R10) and the named parameters (R11). A run's state carries them, they are constant for
the run (R53), and a statement over every state holds for every value of them. -/
structure Params where
  /-- `FORWARDING`, the forwarding-enabled flag (R10). -/
  forwarding : Bool
  /-- `STACK_BASE`, the initial stack base address (R10). -/
  stackBase : Word
  /-- `STACK_MAX_SIZE`, the maximum stack size (R10). -/
  stackMaxSize : Word
  mSet : MSet
  divCorner : DivCorner
  /-- `X0_TRANSIENT` (R353). -/
  x0Transient : Bool
  /-- `IN_RANGE` (R82), the addressable byte addresses as a list of ranges. -/
  ranges : List AddrRange
  misaligned : Misaligned
  specFault : SpecFault
  /-- `ENTRY_PC` (R39). -/
  entryPC : Word
  /-- `RF_INIT` (R35), the initial x1 and x3 to x31: its entries 0 and 2 are not used. -/
  rfInit : Vector Word 32
deriving DecidableEq, Repr

/-- The reset parameters: the documented defaults of R11, and for the open ones (`FORWARDING`, `STACK_BASE` and
`STACK_MAX_SIZE` of R10, `ENTRY_PC` and the size of memory of R11) the start state that spec/95_test_vectors.md §0
uses for every vector (notes/assumptions/1.md: DESIGN CHOICE, the model's for each of the five). -/
def Params.default : Params where
  forwarding := true
  stackBase := 0x8000#32
  stackMaxSize := 0x1000#32
  mSet := .core4
  divCorner := .fault
  x0Transient := false
  ranges := [⟨0, 0x10000⟩]
  misaligned := .fault
  specFault := .deferred
  entryPC := 0x400#32
  rfInit := Vector.replicate 32 0#32

/-- `STACK_FLOOR = STACK_BASE - STACK_MAX_SIZE`, modulo 2^32 (R53). -/
def Params.stackFloor (p : Params) : Word := p.stackBase - p.stackMaxSize

/-- Free value: the predictor's answer to the n-th call for which the environment has queued none (R68, D18). -/
opaque Config.predict : Nat → Bool

/-- Free value: the latency the memory reports for the n-th data access for which the environment has queued none
(R91, D27). -/
opaque Config.latency : Nat → Nat

/-- Free value behind `FATAL_STATUS` (R409, D28): the process status of the fatal kind with this code (R400) is this
number plus one, so it is any nonzero number. -/
opaque Config.fatalStatusPred : Nat → Nat

end Sys2Proof
end

