-- ==== Sys2Proof/Syntax.lean ====
section
/-! DEFINITION. The instructions, one constructor per row of spec/opcode_table.json (spec/30_encoding.md R130), each with
the operand fields its format has (R111 to R118). -/

namespace Sys2Proof

/-- An instruction. `imm12` is the I or S field `imm[11:0]`; `off12` is the B field `imm[12:1]`; `imm20` is the U field
`imm[31:12]`; `off20` is the J field `imm[20:1]` (bit 0 of a branch or jump offset is always 0, R114 and R116). `rm` is
the fused kinds' rounding-mode field, which decodes with every value and is ignored (R128). -/
inductive Instr where
  | lui (rd : RegIdx) (imm20 : BitVec 20)
  | auipc (rd : RegIdx) (imm20 : BitVec 20)
  | jal (rd : RegIdx) (off20 : BitVec 20)
  | jalr (rd rs1 : RegIdx) (imm12 : BitVec 12)
  | beq (rs1 rs2 : RegIdx) (off12 : BitVec 12)
  | bne (rs1 rs2 : RegIdx) (off12 : BitVec 12)
  | blt (rs1 rs2 : RegIdx) (off12 : BitVec 12)
  | bge (rs1 rs2 : RegIdx) (off12 : BitVec 12)
  | bltu (rs1 rs2 : RegIdx) (off12 : BitVec 12)
  | bgeu (rs1 rs2 : RegIdx) (off12 : BitVec 12)
  | lb (rd rs1 : RegIdx) (imm12 : BitVec 12)
  | lh (rd rs1 : RegIdx) (imm12 : BitVec 12)
  | lw (rd rs1 : RegIdx) (imm12 : BitVec 12)
  | lbu (rd rs1 : RegIdx) (imm12 : BitVec 12)
  | lhu (rd rs1 : RegIdx) (imm12 : BitVec 12)
  | sb (rs1 rs2 : RegIdx) (imm12 : BitVec 12)
  | sh (rs1 rs2 : RegIdx) (imm12 : BitVec 12)
  | sw (rs1 rs2 : RegIdx) (imm12 : BitVec 12)
  | addi (rd rs1 : RegIdx) (imm12 : BitVec 12)
  | slti (rd rs1 : RegIdx) (imm12 : BitVec 12)
  | sltiu (rd rs1 : RegIdx) (imm12 : BitVec 12)
  | xori (rd rs1 : RegIdx) (imm12 : BitVec 12)
  | ori (rd rs1 : RegIdx) (imm12 : BitVec 12)
  | andi (rd rs1 : RegIdx) (imm12 : BitVec 12)
  | slli (rd rs1 : RegIdx) (shamt : BitVec 5)
  | srli (rd rs1 : RegIdx) (shamt : BitVec 5)
  | srai (rd rs1 : RegIdx) (shamt : BitVec 5)
  | add (rd rs1 rs2 : RegIdx)
  | sub (rd rs1 rs2 : RegIdx)
  | sll (rd rs1 rs2 : RegIdx)
  | slt (rd rs1 rs2 : RegIdx)
  | sltu (rd rs1 rs2 : RegIdx)
  | xor (rd rs1 rs2 : RegIdx)
  | srl (rd rs1 rs2 : RegIdx)
  | sra (rd rs1 rs2 : RegIdx)
  | or (rd rs1 rs2 : RegIdx)
  | and (rd rs1 rs2 : RegIdx)
  | ecall
  | fmadd (rd rs1 rs2 rs3 : RegIdx) (rm : BitVec 3)
  | fmsub (rd rs1 rs2 rs3 : RegIdx) (rm : BitVec 3)
  | fnmsub (rd rs1 rs2 rs3 : RegIdx) (rm : BitVec 3)
  | fnmadd (rd rs1 rs2 rs3 : RegIdx) (rm : BitVec 3)
  | mul (rd rs1 rs2 : RegIdx)
  | mulh (rd rs1 rs2 : RegIdx)
  | div (rd rs1 rs2 : RegIdx)
  | rem (rd rs1 rs2 : RegIdx)
  | mulhsu (rd rs1 rs2 : RegIdx)
  | mulhu (rd rs1 rs2 : RegIdx)
  | divu (rd rs1 rs2 : RegIdx)
  | remu (rd rs1 rs2 : RegIdx)
deriving DecidableEq, Repr

end Sys2Proof
end

