-- ==== Sys2Proof/WellFormed.lean ====
section
/-! DEFINITION. The check on instructions: a term's fields have the widths of the encoding by their types, so the one thing
left to check is that the kind exists under the parameter `M_SET` (spec/30_encoding.md R125 and R130). -/

namespace Sys2Proof

/-- The instruction exists under `m`: the four kinds added by `Full8` do not exist under `Core4` (R125). -/
def Instr.wellFormed (m : MSet) : Instr → Bool
  | .mulhsu .. | .mulhu .. | .divu .. | .remu .. => m == .full8
  | .lui .. | .auipc .. | .jal .. | .jalr .. => true
  | .beq .. | .bne .. | .blt .. | .bge .. | .bltu .. | .bgeu .. => true
  | .lb .. | .lh .. | .lw .. | .lbu .. | .lhu .. | .sb .. | .sh .. | .sw .. => true
  | .addi .. | .slti .. | .sltiu .. | .xori .. | .ori .. | .andi .. | .slli .. | .srli .. | .srai .. => true
  | .add .. | .sub .. | .sll .. | .slt .. | .sltu .. | .xor .. | .srl .. | .sra .. | .or .. | .and .. => true
  | .ecall | .fmadd .. | .fmsub .. | .fnmsub .. | .fnmadd .. => true
  | .mul .. | .mulh .. | .div .. | .rem .. => true

end Sys2Proof
end

