-- ==== Sys2Proof/Decode.lean ====
section
/-! DEFINITION. Decoding and encoding (spec/30_encoding.md): the fields and immediates (R111 to R117), the decoder (R120 to
R128), the decoder's output fields and the classification predicates (R131, R132), the encoder, and the
decoder the host asks (`decodeTableWord`). -/

namespace Sys2Proof

/-! ## Fields (R111) -/

/-- The value `v` placed with its bit 0 at bit `lsb` of an `n`-bit field, zero elsewhere: the braces of the spec's
concatenations (R13) are the or of such pieces. -/
def putField (n : Nat) {k : Nat} (v : BitVec k) (lsb : Nat) : BitVec n := v.setWidth n <<< lsb

def opcodeOf (w : Word) : BitVec 7 := w.extractLsb' 0 7
def rdOf (w : Word) : RegIdx := w.extractLsb' 7 5
def funct3Of (w : Word) : BitVec 3 := w.extractLsb' 12 3
def rs1Of (w : Word) : RegIdx := w.extractLsb' 15 5
def rs2Of (w : Word) : RegIdx := w.extractLsb' 20 5
def rs3Of (w : Word) : RegIdx := w.extractLsb' 27 5
def funct7Of (w : Word) : BitVec 7 := w.extractLsb' 25 7
def fmtOf (w : Word) : BitVec 2 := w.extractLsb' 25 2
/-- The I field `imm[11:0]`, bits 31 to 20. -/
def iFieldOf (w : Word) : BitVec 12 := w.extractLsb' 20 12
/-- The S field `imm[11:0]`: bits 31 to 25, then bits 11 to 7. -/
def sFieldOf (w : Word) : BitVec 12 := putField 12 (w.extractLsb' 25 7) 5 ||| putField 12 (w.extractLsb' 7 5) 0
/-- The B field `imm[12:1]`: bit 31, bit 7, bits 30 to 25, bits 11 to 8. -/
def bFieldOf (w : Word) : BitVec 12 :=
  putField 12 (w.extractLsb' 31 1) 11 ||| putField 12 (w.extractLsb' 7 1) 10
    ||| putField 12 (w.extractLsb' 25 6) 4 ||| putField 12 (w.extractLsb' 8 4) 0
/-- The U field `imm[31:12]`. -/
def uFieldOf (w : Word) : BitVec 20 := w.extractLsb' 12 20
/-- The J field `imm[20:1]`: bit 31, bits 19 to 12, bit 20, bits 30 to 21. -/
def jFieldOf (w : Word) : BitVec 20 :=
  putField 20 (w.extractLsb' 31 1) 19 ||| putField 20 (w.extractLsb' 12 8) 11
    ||| putField 20 (w.extractLsb' 20 1) 10 ||| putField 20 (w.extractLsb' 21 10) 0

/-! ## Immediates, each extended to 32 bits (R112 to R117) -/

/-- `immI` (R112) and `immS` (R113): a signed 12-bit field. -/
def imm12Value (f : BitVec 12) : Word := f.signExtend 32
/-- `immB` (R114): the field sign-extended and moved up by one, which is the sign extension from 13 bits with bit 0 clear. -/
def immBValue (f : BitVec 12) : Word := f.signExtend 32 <<< 1
/-- `immU` (R115): the field in bits 31 to 12. -/
def immUValue (f : BitVec 20) : Word := putField 32 f 12
/-- `immJ` (R116): the field sign-extended and moved up by one, which is the sign extension from 21 bits with bit 0 clear. -/
def immJValue (f : BitVec 20) : Word := f.signExtend 32 <<< 1
/-- The shift amount (R117), zero-extended. -/
def shamtValue (f : BitVec 5) : Word := f.setWidth 32

/-! ## The decoder -/

/-- BRANCH, by `funct3` (R122, R130). -/
def decodeBranch (w : Word) : Option Instr :=
  match funct3Of w with
  | 0b000#3 => some (.beq (rs1Of w) (rs2Of w) (bFieldOf w))
  | 0b001#3 => some (.bne (rs1Of w) (rs2Of w) (bFieldOf w))
  | 0b100#3 => some (.blt (rs1Of w) (rs2Of w) (bFieldOf w))
  | 0b101#3 => some (.bge (rs1Of w) (rs2Of w) (bFieldOf w))
  | 0b110#3 => some (.bltu (rs1Of w) (rs2Of w) (bFieldOf w))
  | 0b111#3 => some (.bgeu (rs1Of w) (rs2Of w) (bFieldOf w))
  | _ => none

/-- LOAD, by `funct3` (R122, R130). -/
def decodeLoad (w : Word) : Option Instr :=
  match funct3Of w with
  | 0b000#3 => some (.lb (rdOf w) (rs1Of w) (iFieldOf w))
  | 0b001#3 => some (.lh (rdOf w) (rs1Of w) (iFieldOf w))
  | 0b010#3 => some (.lw (rdOf w) (rs1Of w) (iFieldOf w))
  | 0b100#3 => some (.lbu (rdOf w) (rs1Of w) (iFieldOf w))
  | 0b101#3 => some (.lhu (rdOf w) (rs1Of w) (iFieldOf w))
  | _ => none

/-- STORE, by `funct3` (R122, R130). -/
def decodeStore (w : Word) : Option Instr :=
  match funct3Of w with
  | 0b000#3 => some (.sb (rs1Of w) (rs2Of w) (sFieldOf w))
  | 0b001#3 => some (.sh (rs1Of w) (rs2Of w) (sFieldOf w))
  | 0b010#3 => some (.sw (rs1Of w) (rs2Of w) (sFieldOf w))
  | _ => none

/-- OP-IMM, by `funct3`, and by `funct7` for the shifts (R123). -/
def decodeOpImm (w : Word) : Option Instr :=
  match funct3Of w with
  | 0b000#3 => some (.addi (rdOf w) (rs1Of w) (iFieldOf w))
  | 0b010#3 => some (.slti (rdOf w) (rs1Of w) (iFieldOf w))
  | 0b011#3 => some (.sltiu (rdOf w) (rs1Of w) (iFieldOf w))
  | 0b100#3 => some (.xori (rdOf w) (rs1Of w) (iFieldOf w))
  | 0b110#3 => some (.ori (rdOf w) (rs1Of w) (iFieldOf w))
  | 0b111#3 => some (.andi (rdOf w) (rs1Of w) (iFieldOf w))
  | 0b001#3 => if funct7Of w = 0b0000000#7 then some (.slli (rdOf w) (rs1Of w) (rs2Of w)) else none
  | 0b101#3 =>
    if funct7Of w = 0b0000000#7 then some (.srli (rdOf w) (rs1Of w) (rs2Of w))
    else if funct7Of w = 0b0100000#7 then some (.srai (rdOf w) (rs1Of w) (rs2Of w)) else none

/-- OP with `funct7 = 0b0000000` (R125). -/
def decodeOpBase (w : Word) : Option Instr :=
  match funct3Of w with
  | 0b000#3 => some (.add (rdOf w) (rs1Of w) (rs2Of w))
  | 0b001#3 => some (.sll (rdOf w) (rs1Of w) (rs2Of w))
  | 0b010#3 => some (.slt (rdOf w) (rs1Of w) (rs2Of w))
  | 0b011#3 => some (.sltu (rdOf w) (rs1Of w) (rs2Of w))
  | 0b100#3 => some (.xor (rdOf w) (rs1Of w) (rs2Of w))
  | 0b101#3 => some (.srl (rdOf w) (rs1Of w) (rs2Of w))
  | 0b110#3 => some (.or (rdOf w) (rs1Of w) (rs2Of w))
  | 0b111#3 => some (.and (rdOf w) (rs1Of w) (rs2Of w))

/-- OP with `funct7 = 0b0100000` (R125). -/
def decodeOpAlt (w : Word) : Option Instr :=
  match funct3Of w with
  | 0b000#3 => some (.sub (rdOf w) (rs1Of w) (rs2Of w))
  | 0b101#3 => some (.sra (rdOf w) (rs1Of w) (rs2Of w))
  | _ => none

/-- OP with `funct7 = 0b0000001`: four kinds always, four more under `Full8` (R125). -/
def decodeOpMul (m : MSet) (w : Word) : Option Instr :=
  match funct3Of w with
  | 0b000#3 => some (.mul (rdOf w) (rs1Of w) (rs2Of w))
  | 0b001#3 => some (.mulh (rdOf w) (rs1Of w) (rs2Of w))
  | 0b100#3 => some (.div (rdOf w) (rs1Of w) (rs2Of w))
  | 0b110#3 => some (.rem (rdOf w) (rs1Of w) (rs2Of w))
  | 0b010#3 => if m = .full8 then some (.mulhsu (rdOf w) (rs1Of w) (rs2Of w)) else none
  | 0b011#3 => if m = .full8 then some (.mulhu (rdOf w) (rs1Of w) (rs2Of w)) else none
  | 0b101#3 => if m = .full8 then some (.divu (rdOf w) (rs1Of w) (rs2Of w)) else none
  | 0b111#3 => if m = .full8 then some (.remu (rdOf w) (rs1Of w) (rs2Of w)) else none

/-- OP, by `(funct7, funct3)` (R125). -/
def decodeOp (m : MSet) (w : Word) : Option Instr :=
  match funct7Of w with
  | 0b0000000#7 => decodeOpBase w
  | 0b0100000#7 => decodeOpAlt w
  | 0b0000001#7 => decodeOpMul m w
  | _ => none

/-- A fused kind: `fmt` must be `0b00`, and `rm` is kept but never tested (R128). -/
def decodeFused (w : Word) (mk : RegIdx → RegIdx → RegIdx → RegIdx → BitVec 3 → Instr) : Option Instr :=
  if fmtOf w = 0b00#2 then some (mk (rdOf w) (rs1Of w) (rs2Of w) (rs3Of w) (funct3Of w)) else none

/-- The row of R130 that a word matches, by the major opcode map (R122), or none. -/
def decodeRow (m : MSet) (w : Word) : Option Instr :=
  match opcodeOf w with
  | 0b0110111#7 => some (.lui (rdOf w) (uFieldOf w))
  | 0b0010111#7 => some (.auipc (rdOf w) (uFieldOf w))
  | 0b1101111#7 => some (.jal (rdOf w) (jFieldOf w))
  | 0b1100111#7 => if funct3Of w = 0b000#3 then some (.jalr (rdOf w) (rs1Of w) (iFieldOf w)) else none
  | 0b1100011#7 => decodeBranch w
  | 0b0000011#7 => decodeLoad w
  | 0b0100011#7 => decodeStore w
  | 0b0010011#7 => decodeOpImm w
  | 0b0110011#7 => decodeOp m w
  | 0b1000011#7 => decodeFused w .fmadd
  | 0b1000111#7 => decodeFused w .fmsub
  | 0b1001011#7 => decodeFused w .fnmsub
  | 0b1001111#7 => decodeFused w .fnmadd
  | 0b1110011#7 => if w = 0x00000073#32 then some .ecall else none
  | _ => none

/-- The decoder (R120, R121): the instruction of the row that matches, or why there is none. -/
def decode (m : MSet) (w : Word) : Except DecodeReason Instr :=
  if w.extractLsb' 0 2 ≠ 0b11#2 then .error .compressed
  else match decodeRow m w with
    | some i => .ok i
    | none => .error .unrecognized

/-- Four bytes assembled little-endian, the first at the lowest address (R83, R110). -/
def wordOfBytes (b0 b1 b2 b3 : Byte) : Word :=
  putField 32 b3 24 ||| putField 32 b2 16 ||| putField 32 b1 8 ||| putField 32 b0 0

/-- The four bytes of a word in the order in which memory holds them (R83). -/
def bytesOfWord (w : Word) : List Byte :=
  [w.extractLsb' 0 8, w.extractLsb' 8 8, w.extractLsb' 16 8, w.extractLsb' 24 8]

/-- Decode the instruction at the front of a list of bytes and give back the rest: an instruction is four bytes, and
there is no other length (R110). Fewer than four bytes are no instruction. -/
def decodeBytes (m : MSet) : List Byte → Except DecodeReason (Instr × List Byte)
  | b0 :: b1 :: b2 :: b3 :: rest => (decode m (wordOfBytes b0 b1 b2 b3)).map (fun i => (i, rest))
  | _ => .error .unrecognized

/-- The decoder asked by the host: `w`'s low `nbits` bits are the instruction, numbered from the least significant bit of
the first word, and the bits above are 0. Both values of `M_SET` are the spec's, so the whole table
(`Full8`) answers. -/
def decodeTableWord (nbits w : Nat) : Option Instr :=
  match decodeBytes .full8 (bytesOfWord (BitVec.ofNat 32 (w % 2 ^ nbits))) with
  | .ok (i, _) => some i
  | .error _ => none

/-! ## The decoder's output fields (R131) -/

/-- The kind of an instruction. -/
def Instr.kind : Instr → Kind
  | .lui .. => .lui
  | .auipc .. => .auipc
  | .jal .. => .jal
  | .jalr .. => .jalr
  | .beq .. => .beq
  | .bne .. => .bne
  | .blt .. => .blt
  | .bge .. => .bge
  | .bltu .. => .bltu
  | .bgeu .. => .bgeu
  | .lb .. => .lb
  | .lh .. => .lh
  | .lw .. => .lw
  | .lbu .. => .lbu
  | .lhu .. => .lhu
  | .sb .. => .sb
  | .sh .. => .sh
  | .sw .. => .sw
  | .addi .. => .addi
  | .slti .. => .slti
  | .sltiu .. => .sltiu
  | .xori .. => .xori
  | .ori .. => .ori
  | .andi .. => .andi
  | .slli .. => .slli
  | .srli .. => .srli
  | .srai .. => .srai
  | .add .. => .add
  | .sub .. => .sub
  | .sll .. => .sll
  | .slt .. => .slt
  | .sltu .. => .sltu
  | .xor .. => .xor
  | .srl .. => .srl
  | .sra .. => .sra
  | .or .. => .or
  | .and .. => .and
  | .ecall => .ecall
  | .fmadd .. => .fmadd
  | .fmsub .. => .fmsub
  | .fnmsub .. => .fnmsub
  | .fnmadd .. => .fnmadd
  | .mul .. => .mul
  | .mulh .. => .mulh
  | .div .. => .div
  | .rem .. => .rem
  | .mulhsu .. => .mulhsu
  | .mulhu .. => .mulhu
  | .divu .. => .divu
  | .remu .. => .remu

/-- The destination register index, 0 for a kind that writes none; ECALL's is 10 (R130, R131, R240). -/
def Instr.dest : Instr → RegIdx
  | .lui rd _ | .auipc rd _ | .jal rd _ | .jalr rd _ _ => rd
  | .beq .. | .bne .. | .blt .. | .bge .. | .bltu .. | .bgeu .. | .sb .. | .sh .. | .sw .. => 0#5
  | .lb rd _ _ | .lh rd _ _ | .lw rd _ _ | .lbu rd _ _ | .lhu rd _ _ => rd
  | .addi rd _ _ | .slti rd _ _ | .sltiu rd _ _ | .xori rd _ _ | .ori rd _ _ | .andi rd _ _ => rd
  | .slli rd _ _ | .srli rd _ _ | .srai rd _ _ => rd
  | .add rd _ _ | .sub rd _ _ | .sll rd _ _ | .slt rd _ _ | .sltu rd _ _ | .xor rd _ _ => rd
  | .srl rd _ _ | .sra rd _ _ | .or rd _ _ | .and rd _ _ => rd
  | .ecall => 10#5
  | .fmadd rd _ _ _ _ | .fmsub rd _ _ _ _ | .fnmsub rd _ _ _ _ | .fnmadd rd _ _ _ _ => rd
  | .mul rd _ _ | .mulh rd _ _ | .div rd _ _ | .rem rd _ _ => rd
  | .mulhsu rd _ _ | .mulhu rd _ _ | .divu rd _ _ | .remu rd _ _ => rd

/-- The first source index, 0 for a kind that reads none; ECALL's is 10 (R130, R131, R240). -/
def Instr.rs1 : Instr → RegIdx
  | .lui .. | .auipc .. | .jal .. => 0#5
  | .jalr _ r _ => r
  | .beq r _ _ | .bne r _ _ | .blt r _ _ | .bge r _ _ | .bltu r _ _ | .bgeu r _ _ => r
  | .lb _ r _ | .lh _ r _ | .lw _ r _ | .lbu _ r _ | .lhu _ r _ | .sb r _ _ | .sh r _ _ | .sw r _ _ => r
  | .addi _ r _ | .slti _ r _ | .sltiu _ r _ | .xori _ r _ | .ori _ r _ | .andi _ r _ => r
  | .slli _ r _ | .srli _ r _ | .srai _ r _ => r
  | .add _ r _ | .sub _ r _ | .sll _ r _ | .slt _ r _ | .sltu _ r _ | .xor _ r _ => r
  | .srl _ r _ | .sra _ r _ | .or _ r _ | .and _ r _ => r
  | .ecall => 10#5
  | .fmadd _ r _ _ _ | .fmsub _ r _ _ _ | .fnmsub _ r _ _ _ | .fnmadd _ r _ _ _ => r
  | .mul _ r _ | .mulh _ r _ | .div _ r _ | .rem _ r _ => r
  | .mulhsu _ r _ | .mulhu _ r _ | .divu _ r _ | .remu _ r _ => r

/-- The second source index, 0 for a kind that reads none; ECALL's is 17 (R130, R131, R240). -/
def Instr.rs2 : Instr → RegIdx
  | .lui .. | .auipc .. | .jal .. | .jalr .. => 0#5
  | .beq _ r _ | .bne _ r _ | .blt _ r _ | .bge _ r _ | .bltu _ r _ | .bgeu _ r _ => r
  | .lb .. | .lh .. | .lw .. | .lbu .. | .lhu .. => 0#5
  | .sb _ r _ | .sh _ r _ | .sw _ r _ => r
  | .addi .. | .slti .. | .sltiu .. | .xori .. | .ori .. | .andi .. | .slli .. | .srli .. | .srai .. => 0#5
  | .add _ _ r | .sub _ _ r | .sll _ _ r | .slt _ _ r | .sltu _ _ r | .xor _ _ r => r
  | .srl _ _ r | .sra _ _ r | .or _ _ r | .and _ _ r => r
  | .ecall => 17#5
  | .fmadd _ _ r _ _ | .fmsub _ _ r _ _ | .fnmsub _ _ r _ _ | .fnmadd _ _ r _ _ => r
  | .mul _ _ r | .mulh _ _ r | .div _ _ r | .rem _ _ r => r
  | .mulhsu _ _ r | .mulhu _ _ r | .divu _ _ r | .remu _ _ r => r

/-- The third source index, 0 for every kind but the fused ones (R130, R131). -/
def Instr.rs3 : Instr → RegIdx
  | .fmadd _ _ _ r _ | .fmsub _ _ _ r _ | .fnmsub _ _ _ r _ | .fnmadd _ _ _ r _ => r
  | .lui .. | .auipc .. | .jal .. | .jalr .. => 0#5
  | .beq .. | .bne .. | .blt .. | .bge .. | .bltu .. | .bgeu .. => 0#5
  | .lb .. | .lh .. | .lw .. | .lbu .. | .lhu .. | .sb .. | .sh .. | .sw .. => 0#5
  | .addi .. | .slti .. | .sltiu .. | .xori .. | .ori .. | .andi .. | .slli .. | .srli .. | .srai .. => 0#5
  | .add .. | .sub .. | .sll .. | .slt .. | .sltu .. | .xor .. | .srl .. | .sra .. | .or .. | .and .. => 0#5
  | .ecall | .mul .. | .mulh .. | .div .. | .rem .. | .mulhsu .. | .mulhu .. | .divu .. | .remu .. => 0#5

/-- The row's immediate, and 0 for a kind with none (R131). -/
def Instr.imm : Instr → Word
  | .lui _ f | .auipc _ f => immUValue f
  | .jal _ f => immJValue f
  | .beq _ _ f | .bne _ _ f | .blt _ _ f | .bge _ _ f | .bltu _ _ f | .bgeu _ _ f => immBValue f
  | .jalr _ _ f | .lb _ _ f | .lh _ _ f | .lw _ _ f | .lbu _ _ f | .lhu _ _ f => imm12Value f
  | .sb _ _ f | .sh _ _ f | .sw _ _ f => imm12Value f
  | .addi _ _ f | .slti _ _ f | .sltiu _ _ f | .xori _ _ f | .ori _ _ f | .andi _ _ f => imm12Value f
  | .slli _ _ f | .srli _ _ f | .srai _ _ f => shamtValue f
  | .add .. | .sub .. | .sll .. | .slt .. | .sltu .. | .xor .. | .srl .. | .sra .. | .or .. | .and .. => 0#32
  | .ecall | .fmadd .. | .fmsub .. | .fnmsub .. | .fnmadd .. => 0#32
  | .mul .. | .mulh .. | .div .. | .rem .. | .mulhsu .. | .mulhu .. | .divu .. | .remu .. => 0#32

/-! ## Classification by kind alone (R132) -/

/-- BEQ to BGEU. -/
def Kind.isBranch : Kind → Bool
  | .beq | .bne | .blt | .bge | .bltu | .bgeu => true
  | _ => false

/-- JAL and JALR. -/
def Kind.isJump : Kind → Bool
  | .jal | .jalr => true
  | _ => false

/-- LB to LHU. -/
def Kind.isLoad : Kind → Bool
  | .lb | .lh | .lw | .lbu | .lhu => true
  | _ => false

/-- SB to SW. -/
def Kind.isStore : Kind → Bool
  | .sb | .sh | .sw => true
  | _ => false

/-- The kinds of class Mul, which add 3 to the cycle count (R132, R265, R279). -/
def Kind.isMulPenalty : Kind → Bool
  | .mul | .mulh | .mulhsu | .mulhu | .fmadd | .fmsub | .fnmsub | .fnmadd => true
  | _ => false

/-- The kind reads `rs1`: every kind but LUI, AUIPC and JAL. -/
def Kind.readsRs1 : Kind → Bool
  | .lui | .auipc | .jal => false
  | _ => true

/-- The kind reads `rs2`: branches, stores, register-register kinds, ECALL and the fused kinds. -/
def Kind.readsRs2 : Kind → Bool
  | .lui | .auipc | .jal | .jalr | .lb | .lh | .lw | .lbu | .lhu => false
  | .addi | .slti | .sltiu | .xori | .ori | .andi | .slli | .srli | .srai => false
  | _ => true

/-- The kind reads `rs3`: the fused kinds. -/
def Kind.readsRs3 : Kind → Bool
  | .fmadd | .fmsub | .fnmsub | .fnmadd => true
  | _ => false

/-! ## The rows of R130 -/

/-- The mask of a kind's row (R130). -/
def Kind.rowMask : Kind → Word
  | .lui => 0x0000007F#32
  | .auipc => 0x0000007F#32
  | .jal => 0x0000007F#32
  | .jalr => 0x0000707F#32
  | .beq => 0x0000707F#32
  | .bne => 0x0000707F#32
  | .blt => 0x0000707F#32
  | .bge => 0x0000707F#32
  | .bltu => 0x0000707F#32
  | .bgeu => 0x0000707F#32
  | .lb => 0x0000707F#32
  | .lh => 0x0000707F#32
  | .lw => 0x0000707F#32
  | .lbu => 0x0000707F#32
  | .lhu => 0x0000707F#32
  | .sb => 0x0000707F#32
  | .sh => 0x0000707F#32
  | .sw => 0x0000707F#32
  | .addi => 0x0000707F#32
  | .slti => 0x0000707F#32
  | .sltiu => 0x0000707F#32
  | .xori => 0x0000707F#32
  | .ori => 0x0000707F#32
  | .andi => 0x0000707F#32
  | .slli => 0xFE00707F#32
  | .srli => 0xFE00707F#32
  | .srai => 0xFE00707F#32
  | .add => 0xFE00707F#32
  | .sub => 0xFE00707F#32
  | .sll => 0xFE00707F#32
  | .slt => 0xFE00707F#32
  | .sltu => 0xFE00707F#32
  | .xor => 0xFE00707F#32
  | .srl => 0xFE00707F#32
  | .sra => 0xFE00707F#32
  | .or => 0xFE00707F#32
  | .and => 0xFE00707F#32
  | .ecall => 0xFFFFFFFF#32
  | .fmadd => 0x0600007F#32
  | .fmsub => 0x0600007F#32
  | .fnmsub => 0x0600007F#32
  | .fnmadd => 0x0600007F#32
  | .mul => 0xFE00707F#32
  | .mulh => 0xFE00707F#32
  | .div => 0xFE00707F#32
  | .rem => 0xFE00707F#32
  | .mulhsu => 0xFE00707F#32
  | .mulhu => 0xFE00707F#32
  | .divu => 0xFE00707F#32
  | .remu => 0xFE00707F#32

/-- The match value of a kind's row (R130): a word `w` belongs to the row when `w AND mask = match` (R120). -/
def Kind.rowMatch : Kind → Word
  | .lui => 0x00000037#32
  | .auipc => 0x00000017#32
  | .jal => 0x0000006F#32
  | .jalr => 0x00000067#32
  | .beq => 0x00000063#32
  | .bne => 0x00001063#32
  | .blt => 0x00004063#32
  | .bge => 0x00005063#32
  | .bltu => 0x00006063#32
  | .bgeu => 0x00007063#32
  | .lb => 0x00000003#32
  | .lh => 0x00001003#32
  | .lw => 0x00002003#32
  | .lbu => 0x00004003#32
  | .lhu => 0x00005003#32
  | .sb => 0x00000023#32
  | .sh => 0x00001023#32
  | .sw => 0x00002023#32
  | .addi => 0x00000013#32
  | .slti => 0x00002013#32
  | .sltiu => 0x00003013#32
  | .xori => 0x00004013#32
  | .ori => 0x00006013#32
  | .andi => 0x00007013#32
  | .slli => 0x00001013#32
  | .srli => 0x00005013#32
  | .srai => 0x40005013#32
  | .add => 0x00000033#32
  | .sub => 0x40000033#32
  | .sll => 0x00001033#32
  | .slt => 0x00002033#32
  | .sltu => 0x00003033#32
  | .xor => 0x00004033#32
  | .srl => 0x00005033#32
  | .sra => 0x40005033#32
  | .or => 0x00006033#32
  | .and => 0x00007033#32
  | .ecall => 0x00000073#32
  | .fmadd => 0x00000043#32
  | .fmsub => 0x00000047#32
  | .fnmsub => 0x0000004B#32
  | .fnmadd => 0x0000004F#32
  | .mul => 0x02000033#32
  | .mulh => 0x02001033#32
  | .div => 0x02004033#32
  | .rem => 0x02006033#32
  | .mulhsu => 0x02002033#32
  | .mulhu => 0x02003033#32
  | .divu => 0x02005033#32
  | .remu => 0x02007033#32

/-- The kind exists under `m` (R125): four of them only under `Full8`. -/
def Kind.exists (m : MSet) : Kind → Bool
  | .mulhsu | .mulhu | .divu | .remu => m == .full8
  | _ => true

/-! ## The encoder -/

def encodeR (funct7 : BitVec 7) (rs2 rs1 : RegIdx) (funct3 : BitVec 3) (rd : RegIdx) (opcode : BitVec 7) : Word :=
  putField 32 funct7 25 ||| putField 32 rs2 20 ||| putField 32 rs1 15 ||| putField 32 funct3 12
    ||| putField 32 rd 7 ||| putField 32 opcode 0

def encodeR4 (rs3 rs2 rs1 : RegIdx) (rm : BitVec 3) (rd : RegIdx) (opcode : BitVec 7) : Word :=
  putField 32 rs3 27 ||| putField 32 0b00#2 25 ||| putField 32 rs2 20 ||| putField 32 rs1 15 ||| putField 32 rm 12
    ||| putField 32 rd 7 ||| putField 32 opcode 0

def encodeI (imm12 : BitVec 12) (rs1 : RegIdx) (funct3 : BitVec 3) (rd : RegIdx) (opcode : BitVec 7) : Word :=
  putField 32 imm12 20 ||| putField 32 rs1 15 ||| putField 32 funct3 12 ||| putField 32 rd 7 ||| putField 32 opcode 0

def encodeS (imm12 : BitVec 12) (rs2 rs1 : RegIdx) (funct3 : BitVec 3) (opcode : BitVec 7) : Word :=
  putField 32 (imm12.extractLsb' 5 7) 25 ||| putField 32 rs2 20 ||| putField 32 rs1 15 ||| putField 32 funct3 12
    ||| putField 32 (imm12.extractLsb' 0 5) 7 ||| putField 32 opcode 0

/-- `off12` is `imm[12:1]`: its bit 11 is `imm[12]` and its bit 10 is `imm[11]`. -/
def encodeB (off12 : BitVec 12) (rs2 rs1 : RegIdx) (funct3 : BitVec 3) (opcode : BitVec 7) : Word :=
  putField 32 (off12.extractLsb' 11 1) 31 ||| putField 32 (off12.extractLsb' 4 6) 25 ||| putField 32 rs2 20
    ||| putField 32 rs1 15 ||| putField 32 funct3 12 ||| putField 32 (off12.extractLsb' 0 4) 8
    ||| putField 32 (off12.extractLsb' 10 1) 7 ||| putField 32 opcode 0

def encodeU (imm20 : BitVec 20) (rd : RegIdx) (opcode : BitVec 7) : Word :=
  putField 32 imm20 12 ||| putField 32 rd 7 ||| putField 32 opcode 0

/-- `off20` is `imm[20:1]`: its bit 19 is `imm[20]`, bits 18 to 11 are `imm[19:12]` and bit 10 is `imm[11]`. -/
def encodeJ (off20 : BitVec 20) (rd : RegIdx) (opcode : BitVec 7) : Word :=
  putField 32 (off20.extractLsb' 19 1) 31 ||| putField 32 (off20.extractLsb' 0 10) 21
    ||| putField 32 (off20.extractLsb' 10 1) 20 ||| putField 32 (off20.extractLsb' 11 8) 12
    ||| putField 32 rd 7 ||| putField 32 opcode 0

/-- The word of an instruction (R111, R122 to R130). -/
def encode : Instr → Word
  | .lui rd f => encodeU f rd 0b0110111#7
  | .auipc rd f => encodeU f rd 0b0010111#7
  | .jal rd f => encodeJ f rd 0b1101111#7
  | .jalr rd rs1 f => encodeI f rs1 0b000#3 rd 0b1100111#7
  | .beq rs1 rs2 f => encodeB f rs2 rs1 0b000#3 0b1100011#7
  | .bne rs1 rs2 f => encodeB f rs2 rs1 0b001#3 0b1100011#7
  | .blt rs1 rs2 f => encodeB f rs2 rs1 0b100#3 0b1100011#7
  | .bge rs1 rs2 f => encodeB f rs2 rs1 0b101#3 0b1100011#7
  | .bltu rs1 rs2 f => encodeB f rs2 rs1 0b110#3 0b1100011#7
  | .bgeu rs1 rs2 f => encodeB f rs2 rs1 0b111#3 0b1100011#7
  | .lb rd rs1 f => encodeI f rs1 0b000#3 rd 0b0000011#7
  | .lh rd rs1 f => encodeI f rs1 0b001#3 rd 0b0000011#7
  | .lw rd rs1 f => encodeI f rs1 0b010#3 rd 0b0000011#7
  | .lbu rd rs1 f => encodeI f rs1 0b100#3 rd 0b0000011#7
  | .lhu rd rs1 f => encodeI f rs1 0b101#3 rd 0b0000011#7
  | .sb rs1 rs2 f => encodeS f rs2 rs1 0b000#3 0b0100011#7
  | .sh rs1 rs2 f => encodeS f rs2 rs1 0b001#3 0b0100011#7
  | .sw rs1 rs2 f => encodeS f rs2 rs1 0b010#3 0b0100011#7
  | .addi rd rs1 f => encodeI f rs1 0b000#3 rd 0b0010011#7
  | .slti rd rs1 f => encodeI f rs1 0b010#3 rd 0b0010011#7
  | .sltiu rd rs1 f => encodeI f rs1 0b011#3 rd 0b0010011#7
  | .xori rd rs1 f => encodeI f rs1 0b100#3 rd 0b0010011#7
  | .ori rd rs1 f => encodeI f rs1 0b110#3 rd 0b0010011#7
  | .andi rd rs1 f => encodeI f rs1 0b111#3 rd 0b0010011#7
  | .slli rd rs1 f => encodeR 0b0000000#7 f rs1 0b001#3 rd 0b0010011#7
  | .srli rd rs1 f => encodeR 0b0000000#7 f rs1 0b101#3 rd 0b0010011#7
  | .srai rd rs1 f => encodeR 0b0100000#7 f rs1 0b101#3 rd 0b0010011#7
  | .add rd rs1 rs2 => encodeR 0b0000000#7 rs2 rs1 0b000#3 rd 0b0110011#7
  | .sub rd rs1 rs2 => encodeR 0b0100000#7 rs2 rs1 0b000#3 rd 0b0110011#7
  | .sll rd rs1 rs2 => encodeR 0b0000000#7 rs2 rs1 0b001#3 rd 0b0110011#7
  | .slt rd rs1 rs2 => encodeR 0b0000000#7 rs2 rs1 0b010#3 rd 0b0110011#7
  | .sltu rd rs1 rs2 => encodeR 0b0000000#7 rs2 rs1 0b011#3 rd 0b0110011#7
  | .xor rd rs1 rs2 => encodeR 0b0000000#7 rs2 rs1 0b100#3 rd 0b0110011#7
  | .srl rd rs1 rs2 => encodeR 0b0000000#7 rs2 rs1 0b101#3 rd 0b0110011#7
  | .sra rd rs1 rs2 => encodeR 0b0100000#7 rs2 rs1 0b101#3 rd 0b0110011#7
  | .or rd rs1 rs2 => encodeR 0b0000000#7 rs2 rs1 0b110#3 rd 0b0110011#7
  | .and rd rs1 rs2 => encodeR 0b0000000#7 rs2 rs1 0b111#3 rd 0b0110011#7
  | .ecall => 0x00000073#32
  | .fmadd rd rs1 rs2 rs3 rm => encodeR4 rs3 rs2 rs1 rm rd 0b1000011#7
  | .fmsub rd rs1 rs2 rs3 rm => encodeR4 rs3 rs2 rs1 rm rd 0b1000111#7
  | .fnmsub rd rs1 rs2 rs3 rm => encodeR4 rs3 rs2 rs1 rm rd 0b1001011#7
  | .fnmadd rd rs1 rs2 rs3 rm => encodeR4 rs3 rs2 rs1 rm rd 0b1001111#7
  | .mul rd rs1 rs2 => encodeR 0b0000001#7 rs2 rs1 0b000#3 rd 0b0110011#7
  | .mulh rd rs1 rs2 => encodeR 0b0000001#7 rs2 rs1 0b001#3 rd 0b0110011#7
  | .div rd rs1 rs2 => encodeR 0b0000001#7 rs2 rs1 0b100#3 rd 0b0110011#7
  | .rem rd rs1 rs2 => encodeR 0b0000001#7 rs2 rs1 0b110#3 rd 0b0110011#7
  | .mulhsu rd rs1 rs2 => encodeR 0b0000001#7 rs2 rs1 0b010#3 rd 0b0110011#7
  | .mulhu rd rs1 rs2 => encodeR 0b0000001#7 rs2 rs1 0b011#3 rd 0b0110011#7
  | .divu rd rs1 rs2 => encodeR 0b0000001#7 rs2 rs1 0b101#3 rd 0b0110011#7
  | .remu rd rs1 rs2 => encodeR 0b0000001#7 rs2 rs1 0b111#3 rd 0b0110011#7

end Sys2Proof
end

