-- ==== Sys2Proof/Machine/State.lean ====
section
/-! DEFINITION. Everything the spec gives the machine, as plain data (spec/10_state.md R30 to R53, spec/70_reset_and_hazards.md
R431), the reasons a step can stop, and the state after reset. -/

namespace Sys2Proof.Machine

/-! ## Fatal events and the run status -/

/-- Which access a MemoryFault reports (R84). -/
inductive Access where
  | fetch | load | store | stringRead
deriving DecidableEq, Repr

/-- A fatal event with its info (R17, R400). None is an exception that a program can catch: it ends the run (R408). -/
inductive FatalEvent where
  | decodeError (pc inst : Word) (reason : DecodeReason)
  | memoryFault (addr : Word) (n : Nat) (access : Access)
  | stackOverflow (sp : Word)
  | unknownSyscall (n : Word)
  | divideFault (kind : Kind) (a b : Word)
deriving DecidableEq, Repr

/-- The run status (R51): once it is not `running`, no further cycle takes place. -/
inductive RunStatus where
  | running
  | exited                       -- after an exit system call, exit status 0
  | fatal (e : FatalEvent)
deriving DecidableEq, Repr

/-! ## Pipeline registers (R40 to R46) -/

/-- A pipeline register: `content = none` is the bubble (R45 allows the Option), `stall` the number of further cycles the
slot keeps its value (R40, R46). -/
structure Slot (α : Type) where
  content : Option α
  stall : BitVec 2
deriving DecidableEq, Repr

/-- The reset value of every pipeline register: a bubble with `stall = 0` (R40). -/
def Slot.empty {α : Type} : Slot α := ⟨none, 0#2⟩

/-- Payload of `F` (R41): the fetched word and its address, or a deferred fetch fault. -/
structure FRec where
  pc : Word
  inst : Word
  poison : Option FatalEvent
deriving DecidableEq, Repr

/-- The `kind` of a `D` record: one of R130's kinds, or `Poison` with its deferred event (R42, R324). -/
inductive DKind where
  | real (k : Kind)
  | poison (e : FatalEvent)
deriving DecidableEq, Repr

/-- Payload of `D` (R42): the decoded record. -/
structure DRec where
  pc : Word
  inst : Word
  kind : DKind
  rs1 : RegIdx
  rs2 : RegIdx
  rs3 : RegIdx
  dest : RegIdx
  op1 : Word
  op2 : Word
  op3 : Word
  imm : Word
  predictedBranch : Bool
  predictedPC : Word
  anotherPC : Word
deriving DecidableEq, Repr

/-- Payload of `E` (R43): the Execute record. -/
structure ERec where
  pc : Word
  kind : Kind
  op1 : Word
  op2 : Word
  out : Word
  dest : RegIdx
  writeReg : Bool
  readMem : Bool
  writeMem : Bool
  memLen : BitVec 3
  signExt : Bool
  loadClass : Bool
deriving DecidableEq, Repr

/-- Payload of `M` (R44): the Memory record. -/
structure MRec where
  pc : Word
  kind : Kind
  out : Word
  dest : RegIdx
  writeReg : Bool
  loadClass : Bool
deriving DecidableEq, Repr

/-! ## Stall and PC-restore state, counters, console, environment -/

/-- The stall FSM (R47): `countdown = 0` is Running, 1 is AwaitingPcRestore, 2 and 3 are StallPending (R49). -/
structure StallFsm where
  countdown : BitVec 2
  saved : Option FRec
  restorePC : Word
  forwardFetcher : Bool
deriving DecidableEq, Repr

/-- The statistics counters (R50), unbounded naturals (D42). -/
structure Counters where
  cycleCount : Nat
  instCount : Nat
  dataHazardCount : Nat
  controlHazardCount : Nat
  memoryHazardCount : Nat
  branchHit : Nat
  branchMiss : Nat
deriving DecidableEq, Repr

/-- A console output event (R52): a byte, or a signed 32-bit integer. -/
inductive OutEvent where
  | char (b : Byte)
  | int (n : Int)
deriving DecidableEq, Repr

/-- A consumed console input value (R247, R248). -/
inductive InEvent where
  | char (c : Byte)
  | int (n : Word)
deriving DecidableEq, Repr

/-- The console as seen at the core's boundary (R52): what was emitted and what was consumed, oldest first. -/
structure Console where
  output : List OutEvent
  consumed : List InEvent
deriving DecidableEq, Repr

/-- A call the core makes on the predictor port (R68). -/
inductive PredictorCall where
  | predict (pc : Word) (kind : Kind) (op1 op2 offset : Word) (answer : Bool)
  | update (pc : Word) (actualTaken : Bool)
deriving DecidableEq, Repr

/-- The model's own field: the environment's draws of R300 as plain data. `chars` and `ints` are the console inputs the
host has supplied and the core has not consumed (R247, R248, R250); `answers` and `latencies` are queued
predictor answers and reported latencies; when a queue is empty the draw is the free value
`Config.predict answerDraws` or `Config.latency latencyDraws` and the counter advances. -/
structure Env where
  chars : List Byte
  ints : List Word
  answers : List Bool
  answerDraws : Nat
  latencies : List Nat
  latencyDraws : Nat
deriving DecidableEq, Repr

/-! ## Memory -/

/-- Memory as address and byte pairs in one canonical form: addresses strictly rising, none listed with the byte that an
unlisted address reads as. Address 0 to 2^32 - 1 (R81); whether an address exists is `Params.ranges` (R82). -/
abbrev Memory := List Host.Cell

/-- What an unlisted address reads as (notes/assumptions/2.md: DESIGN CHOICE, unsafe). -/
def Memory.unlisted : Byte := 0#8

/-- The addresses are strictly rising, all at least `lo` and below 2^32, and no listed byte is the unlisted one. -/
def Memory.wfFrom : Nat → Memory → Bool
  | _, [] => true
  | lo, (a, b) :: rest => decide (lo ≤ a) && decide (a < 2 ^ 32) && (b != Memory.unlisted) && Memory.wfFrom (a + 1) rest

/-- The canonical form. -/
def Memory.wf (m : Memory) : Bool := Memory.wfFrom 0 m

/-! ## The state -/

/-- The state of the core and of what stands at its boundary. -/
structure State where
  /-- The register file (R30): 32 slots, `x0` hard-wired to zero (R31). -/
  x : Vector Word 32
  /-- The fetch program counter (R36). -/
  pc : Word
  /-- Pipeline register Fetch to Decode. -/
  f : Slot FRec
  /-- Pipeline register Decode to Execute. -/
  d : Slot DRec
  /-- Pipeline register Execute to Memory. -/
  e : Slot ERec
  /-- Pipeline register Memory to WriteBack. -/
  m : Slot MRec
  /-- The stall and PC-restore FSM (R47). -/
  fsm : StallFsm
  /-- The statistics counters (R50). -/
  counters : Counters
  /-- The run status (R51). -/
  status : RunStatus
  /-- The console (R52). -/
  console : Console
  /-- The model's own: the calls made on the predictor port (R68), oldest first. -/
  predictorLog : List PredictorCall
  /-- The model's own: the environment's pending draws. -/
  env : Env
  /-- Memory (R81, R92). -/
  mem : Memory
  /-- The configuration inputs and parameters (R10, R11, R53), constant for the run. -/
  params : Params
deriving DecidableEq, Repr

/-! ## The reasons a step can stop -/

/-- Why the machine has no next state. None of these is an event of the program: a fatal event or an exit is a next state
whose status says so (R51). -/
inductive Fault where
  /-- Raised by `step` when the run status is not `running`: the step is defined only when it is (R51, R300). Safe. -/
  | runEnded
  /-- Raised by system calls 4 and 5 (by the step whose Memory stage makes them, and by their meaning) while the host has
  supplied no input: the cycle does not complete, the run is stuck (R250). Safe. -/
  | awaitingConsoleInput
  /-- Raised by system call 0 on a string that runs through the whole address space with no zero byte and no fault: it
  never ends and the cycle does not complete (R243). Safe. -/
  | stringNeverEnds
deriving DecidableEq, Repr

/-- Why the model gives an instruction no meaning. -/
inductive Refusal where
  /-- Raised by a dispatch arm whose instruction has no meaning yet; no arm of this model does. Safe. -/
  | notModelled (mnemonic : String)
deriving DecidableEq, Repr

/-! ## Reset (R431) -/

/-- The register file at reset (R35): `x0 = 0`, `x2 = STACK_BASE`, the others from `RF_INIT`. -/
def resetRegs (p : Params) : Vector Word 32 := (p.rfInit.set 0 0#32).set 2 p.stackBase

/-- The state after reset with parameters `p`, initial memory `image` (`MEM_IMAGE`, R92) and environment `env`. -/
def State.resetWith (p : Params) (image : Memory) (env : Env) : State where
  x := resetRegs p
  pc := p.entryPC
  f := Slot.empty
  d := Slot.empty
  e := Slot.empty
  m := Slot.empty
  fsm := { countdown := 0#2, saved := none, restorePC := 0#32, forwardFetcher := false }
  counters := { cycleCount := 0, instCount := 0, dataHazardCount := 0, controlHazardCount := 0,
                memoryHazardCount := 0, branchHit := 0, branchMiss := 0 }
  status := .running
  console := { output := [], consumed := [] }
  predictorLog := []
  env := env
  mem := image
  params := p

/-- An environment that has queued nothing (notes/assumptions/3.md: DESIGN CHOICE). -/
def Env.empty : Env := { chars := [], ints := [], answers := [], answerDraws := 0, latencies := [], latencyDraws := 0 }

/-- The machine right after reset: R431 with `Params.default`, memory with nothing listed and no input queued. -/
def State.reset : State := State.resetWith Params.default [] Env.empty

end Sys2Proof.Machine
end

