-- ==== Sys2Proof/Machine/Ops.lean ====
section
/-! DEFINITION. The named operations over registers, memory, the console, the environment's draws and the run's end, which
every meaning and every pipeline stage uses. -/

namespace Sys2Proof.Machine

/-! ## Registers (R30 to R34) -/

/-- A read port: `x0` reads as zero, another register its slot (R31, R33). -/
def State.readReg (s : State) (r : RegIdx) : Word := if r = 0#5 then 0#32 else s.x[r.toNat]'r.isLt

/-- The write port: a write to `x0` is skipped (R31, R34). -/
def State.writeReg (s : State) (r : RegIdx) (v : Word) : State :=
  if r = 0#5 then s else { s with x := s.x.set r.toNat v r.isLt }

/-- Step 2 of a cycle forces register 0 back to zero (R321). -/
def State.forceX0 (s : State) : State := { s with x := s.x.set 0 0#32 }

/-- The stack pointer, `x2` (R32). -/
def State.sp (s : State) : Word := s.readReg 2#5

/-- The stack guard of R321: `x2` is below the stack floor, unsigned. -/
def State.guardFails (s : State) : Bool := decide (s.sp.toNat < s.params.stackFloor.toNat)

/-! ## Memory (R80 to R86) -/

/-- The byte at an address. -/
def Memory.read : Memory → Nat → Byte
  | [], _ => Memory.unlisted
  | (k, b) :: rest, a => if a = k then b else Memory.read rest a

/-- Store one byte, keeping the canonical form: the unlisted byte is stored by taking the entry away. -/
def Memory.write : Memory → Nat → Byte → Memory
  | [], a, v => if v = Memory.unlisted then [] else [(a, v)]
  | (k, b) :: rest, a, v =>
    if a < k then (if v = Memory.unlisted then (k, b) :: rest else (a, v) :: (k, b) :: rest)
    else if a = k then (if v = Memory.unlisted then rest else (a, v) :: rest)
    else (k, b) :: Memory.write rest a v

/-- `n` bytes from address `a` on, assembled little-endian and zero-extended (R16, R83). -/
def Memory.readLE (mem : Memory) (a : Nat) : Nat → Word
  | 0 => 0#32
  | n + 1 => putField 32 (mem.read a) 0 ||| (Memory.readLE mem (a + 1) n <<< 8)

/-- Store the low `8 n` bits of `v` at address `a` on, little-endian (R16, R83). -/
def Memory.writeLE (mem : Memory) (a : Nat) : Nat → Word → Memory
  | 0, _ => mem
  | n + 1, v => Memory.writeLE (mem.write a (v.extractLsb' 0 8)) (a + 1) n (v >>> 8)

/-- `IN_RANGE` of one byte address (R82). -/
def inRangeByte (p : Params) (a : Nat) : Bool :=
  p.ranges.any (fun r => decide (r.base ≤ a) && decide (a < r.base + r.size))

/-- An access of `n` bytes is in range when every byte is and it does not pass 2^32 (R82). -/
def inRange (p : Params) (addr : Word) (n : Nat) : Bool :=
  decide (addr.toNat + n ≤ 2 ^ 32) && (List.range n).all (fun k => inRangeByte p (addr.toNat + k))

/-- The access is aligned, or `MISALIGNED = ByteWise` performs it byte by byte (R85). -/
def aligned (p : Params) (addr : Word) (n : Nat) : Bool :=
  decide (p.misaligned = .byteWise) || decide (addr.toNat % n = 0)

/-- The access is performed: range and alignment are checked before any byte is touched (R84, R85, R86). -/
def accessOk (p : Params) (addr : Word) (n : Nat) : Bool := inRange p addr n && aligned p addr n

/-- `MemRead(addr, n)` (R16): the value, or the MemoryFault of R84 and R85. -/
def State.memRead (s : State) (addr : Word) (n : Nat) (acc : Access) : Except FatalEvent Word :=
  if accessOk s.params addr n then .ok (s.mem.readLE addr.toNat n) else .error (.memoryFault addr n acc)

/-- The value of a load of `n` bytes (R88, R201): sign- or zero-extended from `8 n` bits. -/
def extendLoad (v : Word) (n : Nat) (signed : Bool) : Word :=
  if signed then (v.setWidth (8 * n)).signExtend 32 else (v.setWidth (8 * n)).setWidth 32

/-! ## Draws (R300, D16, D18, D27) -/

/-- One answer of the predictor: the next queued one, or a free value. -/
def Env.drawAnswer (v : Env) : Bool × Env :=
  match v.answers with
  | b :: rest => (b, { v with answers := rest })
  | [] => (Config.predict v.answerDraws, { v with answerDraws := v.answerDraws + 1 })

/-- One reported latency: the next queued one, or a free value. -/
def Env.drawLatency (v : Env) : Nat × Env :=
  match v.latencies with
  | n :: rest => (n, { v with latencies := rest })
  | [] => (Config.latency v.latencyDraws, { v with latencyDraws := v.latencyDraws + 1 })

/-- The sum of the latencies of `k` data accesses (R91, R340). -/
def Env.drawLatencies : Nat → Env → Nat × Env
  | 0, v => (0, v)
  | k + 1, v =>
    let r := v.drawLatency
    let q := Env.drawLatencies k r.2
    (r.1 + q.1, q.2)

/-! ## Effects of the Memory stage, pending until the merge (R302, R327, R331) -/

/-- A pending store: address, width in bytes, value (R202). -/
structure PendingStore where
  addr : Word
  len : Nat
  value : Word
deriving DecidableEq, Repr

/-- The pending effects of one Memory stage: at most one store, console output in order, at most one consumed input, and
how many data accesses report a latency. -/
structure Effects where
  store : Option PendingStore
  output : List OutEvent
  consumed : Option InEvent
  accesses : Nat
deriving DecidableEq, Repr

/-- No effect. -/
def Effects.nothing : Effects := { store := none, output := [], consumed := none, accesses := 0 }

/-- Emit console output, oldest first (R251). -/
def State.emit (s : State) (out : List OutEvent) : State :=
  { s with console := { s.console with output := s.console.output ++ out } }

/-- Perform a pending store (R331). -/
def State.performStore (s : State) : Option PendingStore → State
  | some st => { s with mem := s.mem.writeLE st.addr.toNat st.len st.value }
  | none => s

/-- Consume a console input value: it leaves the host's queue and is recorded (R52, R251). -/
def State.consume (s : State) : Option InEvent → State
  | some (.char c) =>
    { s with env := { s.env with chars := s.env.chars.tail }
             console := { s.console with consumed := s.console.consumed ++ [.char c] } }
  | some (.int n) =>
    { s with env := { s.env with ints := s.env.ints.tail }
             console := { s.console with consumed := s.console.consumed ++ [.int n] } }
  | none => s

/-- Apply the Memory stage's pending effects (R331). -/
def State.applyEffects (s : State) (fx : Effects) : State :=
  ((s.performStore fx.store).emit fx.output).consume fx.consumed

/-- Record a call on the predictor port (R68, R331). -/
def State.logPredictor (s : State) : Option PredictorCall → State
  | some c => { s with predictorLog := s.predictorLog ++ [c] }
  | none => s

/-- The WriteBack stage's register write (R34, R328). -/
def State.writeBack (s : State) (m : MRec) : State := if m.writeReg then s.writeReg m.dest m.out else s

/-- Add to the two counters that an ending cycle still moves (R332, R333). -/
def State.count (s : State) (cycles insts : Nat) : State :=
  { s with counters := { s.counters with cycleCount := s.counters.cycleCount + cycles
                                         instCount := s.counters.instCount + insts } }

/-! ## The end of a run -/

/-- Taking a fatal event, the hardware's only exception: the run ends with `Fatal(kind, info)`; no register saves anything,
no mode changes, and control goes nowhere (R17, R332, R408). -/
def State.raise (s : State) (e : FatalEvent) : State := { s with status := .fatal e }

/-- The end of an exit system call (R333): `x0` is forced, the guard runs once more, and the run ends `Exited` or with
StackOverflow. -/
def State.exitRun (s : State) : State :=
  let s1 := s.forceX0
  if s1.guardFails then s1.raise (.stackOverflow s1.sp) else { s1 with status := .exited }

/-- The spec's code of a fatal kind (R400). -/
def FatalEvent.code : FatalEvent → Nat
  | .decodeError .. => 1
  | .memoryFault .. => 2
  | .stackOverflow .. => 3
  | .unknownSyscall .. => 4
  | .divideFault .. => 5

/-- The process exit status of an ended run: 0 after an exit, a free nonzero number after a fatal event (R246, R409). -/
def State.exitStatus (s : State) : Option Nat :=
  match s.status with
  | .running => none
  | .exited => some 0
  | .fatal e => some (Config.fatalStatusPred e.code + 1)

end Sys2Proof.Machine
end

