-- ==== Sys2Proof/Machine/Operands.lean ====
section
/-! DEFINITION. The operand forms: the decoder's snapshot of source registers and its branch record (spec/30_encoding.md R131,
spec/48_pipeline_cycle.md R324, spec/42_branches_jumps.md R219), the one addressing mode (spec/41_loads_stores.md
R200), jump targets (R216, R217) and shift amounts. -/

namespace Sys2Proof.Machine

/-- The decoded record of instruction `i` at address `pc` before the predictor is asked: the fields of R131, and the
operands as the register file holds them at the start of the cycle (R33, R324). -/
def State.snapshot (s : State) (pc inst : Word) (i : Instr) : DRec where
  pc := pc
  inst := inst
  kind := .real i.kind
  rs1 := i.rs1
  rs2 := i.rs2
  rs3 := i.rs3
  dest := i.dest
  op1 := s.readReg i.rs1
  op2 := s.readReg i.rs2
  op3 := s.readReg i.rs3
  imm := i.imm
  predictedBranch := false
  predictedPC := 0#32
  anotherPC := 0#32

/-- Record the predictor's answer in a branch's record (R219, R324). -/
def DRec.predicted (d : DRec) (answer : Bool) : DRec :=
  { d with predictedBranch := answer
           predictedPC := d.pc + d.imm
           anotherPC := if answer then d.pc + 4#32 else d.pc + d.imm }

/-- Where fetch goes on after the record is decoded (R37, R338): the predicted target of a branch predicted taken, else the
following word. -/
def DRec.predictedNext (d : DRec) : Word := if d.predictedBranch then d.predictedPC else d.pc + 4#32

/-- The outcome of decoding one instruction: its record, the environment after the predictor's draw, and the call made on
the predictor port. -/
structure Decoded where
  record : DRec
  env : Env
  call : Option PredictorCall
deriving DecidableEq, Repr

/-- Decode instruction `i` at `pc` (R131, R324): a branch kind asks the predictor once, with the snapshot's values. -/
def State.decodeInstr (s : State) (pc inst : Word) (i : Instr) : Decoded :=
  let d := s.snapshot pc inst i
  if i.kind.isBranch then
    let a := s.env.drawAnswer
    { record := d.predicted a.1, env := a.2, call := some (.predict pc i.kind d.op1 d.op2 d.imm a.1) }
  else { record := d, env := s.env, call := none }

/-- A Poison record (R324): it carries the deferred event and is neither a consumer nor a producer. R324 leaves its `inst`,
`op1` to `op3`, `imm`, `predictedPC` and `anotherPC` open and nothing reads them; the fetched word and the zeros
here are the model's (notes/assumptions/11.md: DESIGN CHOICE). -/
def poisonRecord (pc inst : Word) (e : FatalEvent) : DRec where
  pc := pc
  inst := inst
  kind := .poison e
  rs1 := 0#5
  rs2 := 0#5
  rs3 := 0#5
  dest := 0#5
  op1 := 0#32
  op2 := 0#32
  op3 := 0#32
  imm := 0#32
  predictedBranch := false
  predictedPC := 0#32
  anotherPC := 0#32

/-- The effective address of a load or store: register plus immediate, modulo 2^32 (R200). -/
def DRec.effectiveAddress (d : DRec) : Word := d.op1 + d.imm

/-- JAL's target, `pc + immJ` (R216). -/
def DRec.jalTarget (d : DRec) : Word := d.pc + d.imm

/-- JALR's target, `(op1 + immI) AND 0xFFFFFFFE` (R217). -/
def DRec.jalrTarget (d : DRec) : Word := (d.op1 + d.imm) &&& 0xFFFFFFFE#32

/-- The link, `pc + 4` (R216, R217). -/
def DRec.link (d : DRec) : Word := d.pc + 4#32

/-- The amount of a register-register shift: the low five bits of the second operand (R172, R176, R177). -/
def shiftAmount (b : Word) : Nat := (b.extractLsb' 0 5).toNat

end Sys2Proof.Machine
end

