-- ==== Sys2Proof/Machine/Flags.lean ====
section
/-! DEFINITION. The core has no condition codes and no status flags (spec/10_state.md R54, spec/40_integer_alu.md R151), so
there is no flag computation. This file holds what takes their place: the signed and unsigned comparisons
(spec/00_scope.md R14) that SLT, SLTU and the six branch conditions (spec/42_branches_jumps.md R210 to
R215) are made of. -/

namespace Sys2Proof.Machine

/-- `a <s b` (R14). -/
def signedLess (a b : Word) : Bool := decide (a.toInt < b.toInt)

/-- `a <u b` (R14). -/
def unsignedLess (a b : Word) : Bool := decide (a.toNat < b.toNat)

/-- A truth value as a register value, 1 or 0. -/
def boolWord (c : Bool) : Word := if c then 1#32 else 0#32

/-- BEQ (R210). -/
def condEq (a b : Word) : Bool := decide (a = b)
/-- BNE (R211). -/
def condNe (a b : Word) : Bool := decide (a ≠ b)
/-- BLT (R212). -/
def condLt (a b : Word) : Bool := signedLess a b
/-- BGE (R213). -/
def condGe (a b : Word) : Bool := decide (a.toInt ≥ b.toInt)
/-- BLTU (R214). -/
def condLtu (a b : Word) : Bool := unsignedLess a b
/-- BGEU (R215). -/
def condGeu (a b : Word) : Bool := decide (a.toNat ≥ b.toNat)

end Sys2Proof.Machine
end

