-- ==== Sys2Proof/Machine/MemoryStage.lean ====
section
/-! DEFINITION. What the Memory stage does with an Execute record (spec/48_pipeline_cycle.md R327): a load, a store, or one of
the system calls (spec/44_system_call.md R242 to R249). -/

namespace Sys2Proof.Machine

/-- The result of the Memory stage on one record. -/
inductive MemResult where
  | stuck (f : Fault)                                    -- the cycle does not complete (R243, R250)
  | fatal (e : FatalEvent) (printed : List OutEvent)     -- an event, and what a print-string had emitted (R243)
  | exit                                                 -- the exit event (R246)
  | done (m : MRec) (fx : Effects)
deriving DecidableEq, Repr

/-- The Memory record before the access: everything copied from the Execute record (R327). -/
def ERec.passOn (e : ERec) : MRec where
  pc := e.pc
  kind := e.kind
  out := e.out
  dest := e.dest
  writeReg := e.writeReg
  loadClass := e.loadClass

/-- A load (R201, R203). -/
def State.loadAccess (s : State) (e : ERec) : MemResult :=
  match s.memRead e.out e.memLen.toNat .load with
  | .ok v => .done { e.passOn with out := extendLoad v e.memLen.toNat e.signExt }
      { Effects.nothing with accesses := 1 }
  | .error ev => .fatal ev []

/-- A store (R202, R203): pending until the merge. -/
def State.storeAccess (s : State) (e : ERec) : MemResult :=
  if accessOk s.params e.out e.memLen.toNat then
    .done e.passOn { Effects.nothing with
      store := some { addr := e.out, len := e.memLen.toNat, value := e.op2 }, accesses := 1 }
  else .fatal (.memoryFault e.out e.memLen.toNat .store) []

/-- The outcome of reading a string byte by byte. -/
inductive StringRead where
  | ended (chars : List OutEvent) (reads : Nat)
  | faulted (e : FatalEvent) (chars : List OutEvent)
  | endless
deriving DecidableEq, Repr

/-- One more character and one more read in front. -/
def StringRead.after (c : OutEvent) : StringRead → StringRead
  | .ended cs n => .ended (c :: cs) (n + 1)
  | .faulted e cs => .faulted e (c :: cs)
  | .endless => .endless

/-- The loop of call 0 from address `p` for at most `fuel` bytes (R243). -/
def State.readString (s : State) : Nat → Word → StringRead
  | 0, _ => .endless
  | fuel + 1, p =>
    match s.memRead p 1 .stringRead with
    | .error e => .faulted e []
    | .ok b => if b = 0#32 then .ended [] 1 else (s.readString fuel (p + 1#32)).after (.char (b.setWidth 8))

/-- The loop of call 0. After 2^32 bytes it is back where it began with nothing changed, so it never ends (R243). -/
def State.printString (s : State) (p : Word) : StringRead := s.readString (2 ^ 32) p

/-- Call 0, print string (R243). -/
def State.callPrintString (s : State) (e : ERec) : MemResult :=
  match s.printString e.op1 with
  | .ended cs n => .done e.passOn { Effects.nothing with output := cs, accesses := n }
  | .faulted ev cs => .fatal ev cs
  | .endless => .stuck .stringNeverEnds

/-- Call 1, print character: bits 31 to 8 of the argument are ignored (R244). -/
def State.callPrintChar (_s : State) (e : ERec) : MemResult :=
  .done e.passOn { Effects.nothing with output := [.char (e.op1.setWidth 8)] }

/-- Call 2, print integer (R245). -/
def State.callPrintInt (_s : State) (e : ERec) : MemResult :=
  .done e.passOn { Effects.nothing with output := [.int e.op1.toInt] }

/-- Call 4, read character (R247), stuck while the host has supplied none (R250). -/
def State.callReadChar (s : State) (e : ERec) : MemResult :=
  match s.env.chars with
  | c :: _ => .done { e.passOn with out := c.setWidth 32 } { Effects.nothing with consumed := some (.char c) }
  | [] => .stuck .awaitingConsoleInput

/-- Call 5, read integer (R248), stuck while the host has supplied none (R250). -/
def State.callReadInt (s : State) (e : ERec) : MemResult :=
  match s.env.ints with
  | n :: _ => .done { e.passOn with out := n } { Effects.nothing with consumed := some (.int n) }
  | [] => .stuck .awaitingConsoleInput

/-- ECALL at Memory: the call selected by the whole value of `op2`, with argument `op1` (R242 to R249). -/
def State.systemCall (s : State) (e : ERec) : MemResult :=
  if e.op2 = 0#32 then s.callPrintString e
  else if e.op2 = 1#32 then s.callPrintChar e
  else if e.op2 = 2#32 then s.callPrintInt e
  else if e.op2 = 3#32 ∨ e.op2 = 93#32 then .exit
  else if e.op2 = 4#32 then s.callReadChar e
  else if e.op2 = 5#32 then s.callReadInt e
  else .fatal (.unknownSyscall e.op2) []

/-- The Memory stage on a record (R327). -/
def State.memoryAccess (s : State) (e : ERec) : MemResult :=
  if e.readMem then s.loadAccess e
  else if e.writeMem then s.storeAccess e
  else if e.kind = .ecall then s.systemCall e
  else .done e.passOn Effects.nothing

end Sys2Proof.Machine
end

