-- ==== Sys2Proof/Machine/Execute.lean ====
section
/-! DEFINITION. What a kind's rule gives at Execute (spec/48_pipeline_cycle.md R325), and one instruction run by itself: the
sequential execution of spec/48_pipeline_cycle.md R346, made of the same Decode, Execute, Memory and
WriteBack operations as the pipeline. -/

namespace Sys2Proof.Machine

/-- What a kind's rule computes at Execute (R64, R325): the Execute record's fields, the control-hazard target, the branch
outcome, or an event. -/
structure ExOut where
  out : Word
  writeReg : Bool
  readMem : Bool
  writeMem : Bool
  memLen : BitVec 3
  signExt : Bool
  loadClass : Bool
  ctrl : Option Word
  taken : Option Bool
  event : Option FatalEvent
deriving DecidableEq, Repr

/-- The record's initial fields (R325). -/
def ExOut.empty : ExOut where
  out := 0#32
  writeReg := false
  readMem := false
  writeMem := false
  memLen := 0#3
  signExt := false
  loadClass := false
  ctrl := none
  taken := none
  event := none

/-- An ALU result (R150). -/
def ExOut.alu (v : Word) : ExOut := { ExOut.empty with out := v, writeReg := true }

/-- A load of `n` bytes (R201). -/
def ExOut.load (d : DRec) (n : BitVec 3) (signed : Bool) : ExOut :=
  { ExOut.empty with out := d.effectiveAddress, writeReg := true, readMem := true, memLen := n, signExt := signed,
                     loadClass := true }

/-- A store of `n` bytes (R202). -/
def ExOut.store (d : DRec) (n : BitVec 3) : ExOut :=
  { ExOut.empty with out := d.effectiveAddress, writeMem := true, memLen := n }

/-- A branch resolved against its prediction (R220). -/
def ExOut.branch (d : DRec) (taken : Bool) : ExOut :=
  { ExOut.empty with taken := some taken, ctrl := if taken = d.predictedBranch then none else some d.anotherPC }

/-- A jump: the link, and always a control hazard (R216, R217, R223). -/
def ExOut.jump (d : DRec) (target : Word) : ExOut :=
  { ExOut.empty with out := d.link, writeReg := true, ctrl := some target }

/-- An event at Execute (R325). -/
def ExOut.raise (e : FatalEvent) : ExOut := { ExOut.empty with event := some e }

/-- The Execute record of kind `k` (R325). -/
def ExOut.record (o : ExOut) (k : Kind) (d : DRec) : ERec where
  pc := d.pc
  kind := k
  op1 := d.op1
  op2 := d.op2
  out := o.out
  dest := d.dest
  writeReg := o.writeReg
  readMem := o.readMem
  writeMem := o.writeMem
  memLen := o.memLen
  signExt := o.signExt
  loadClass := o.loadClass

/-- The `Update(pc, taken)` call of a branch (R68, R220). -/
def ExOut.update (o : ExOut) (d : DRec) : Option PredictorCall := o.taken.map (PredictorCall.update d.pc)

/-- 1 if a branch matched its prediction (R220, R342). -/
def ExOut.hits (o : ExOut) (d : DRec) : Nat := if o.taken = some d.predictedBranch then 1 else 0

/-- 1 if a branch did not match its prediction (R220, R342). -/
def ExOut.misses (o : ExOut) (d : DRec) : Nat := if o.taken = some (!d.predictedBranch) then 1 else 0

/-- The multiply penalty of a kind (R340). -/
def mulPenalty (k : Kind) : Nat := if k.isMulPenalty then 3 else 0

/-- The address of the next instruction after the one recorded in `d` (R37, R221): the control-hazard target, else the
predicted target of a branch predicted taken, else the following word. -/
def nextPC (o : ExOut) (d : DRec) : Word :=
  match o.ctrl with
  | some t => t
  | none => d.predictedNext

/-- The counters that the instruction itself moves: it retires (R341), its penalty and its accesses' latency are added to
the cycle count (R91, R265, R279), and a branch or jump counts as R220 and R223 say. The 1 that a cycle adds
belongs to the cycle (R340), not to the instruction (notes/assumptions/5.md). -/
def Counters.instruction (c : Counters) (k : Kind) (o : ExOut) (d : DRec) (latency : Nat) : Counters :=
  { c with cycleCount := c.cycleCount + mulPenalty k + latency
           instCount := c.instCount + 1
           controlHazardCount := c.controlHazardCount + (if o.ctrl.isSome then 1 else 0)
           branchHit := c.branchHit + o.hits d
           branchMiss := c.branchMiss + o.misses d }

/-- The state after an instruction has run by itself to its end: the predictor calls, the Memory stage's effects, the
register write, the counters and the next `pc`. -/
def State.completeAlone (s : State) (k : Kind) (o : ExOut) (dc : Decoded) (m : MRec) (fx : Effects) : State :=
  let l := dc.env.drawLatencies fx.accesses
  let s1 := ({ s with env := l.2 }.logPredictor dc.call).logPredictor (o.update dc.record)
  let s2 := (s1.applyEffects fx).writeBack m
  { s2 with pc := nextPC o dc.record, counters := Counters.instruction s.counters k o dc.record l.1 }

/-- One instruction run by itself at `pc`, as the sequential execution of R346 runs it: Decode reads the sources (R324),
the kind's rule `ex` computes (R325), the Memory stage acts (R327), WriteBack writes (R328). A fatal event
leaves everything but the status, and but the characters a print-string had emitted (R243, R332). -/
def runAlone (i : Instr) (ex : Params → DRec → ExOut) (s : State) : Host.Outcome State Fault Refusal :=
  let dc := s.decodeInstr s.pc (encode i) i
  let o := ex s.params dc.record
  match o.event with
  | some ev => .next (s.raise ev)
  | none =>
    match s.memoryAccess (o.record i.kind dc.record) with
    | .stuck f => .fault f
    | .fatal ev printed => .next ((s.emit printed).raise ev)
    | .exit => .next ((s.count 0 1).exitRun)
    | .done m fx => .next (s.completeAlone i.kind o dc m fx)

end Sys2Proof.Machine
end

