-- ==== Sys2Proof/Machine/Branches.lean ====
section
/-! DEFINITION. Branches and jumps (spec/42_branches_jumps.md R210 to R224): predicted at Decode (R219), resolved at Execute
(R220); a jump is never predicted (R223). No target is checked here: a misaligned one faults at its fetch
(R218). -/

namespace Sys2Proof.Machine

/-- BEQ at Execute (R210). -/
def exBeq (_p : Params) (d : DRec) : ExOut := ExOut.branch d (condEq d.op1 d.op2)

/-- The whole of BEQ. -/
def execBeq (rs1 rs2 : RegIdx) (off12 : BitVec 12) (s : State) : Host.Outcome State Fault Refusal := runAlone (.beq rs1 rs2 off12) exBeq s

/-- BNE at Execute (R211). -/
def exBne (_p : Params) (d : DRec) : ExOut := ExOut.branch d (condNe d.op1 d.op2)

/-- The whole of BNE. -/
def execBne (rs1 rs2 : RegIdx) (off12 : BitVec 12) (s : State) : Host.Outcome State Fault Refusal := runAlone (.bne rs1 rs2 off12) exBne s

/-- BLT at Execute (R212). -/
def exBlt (_p : Params) (d : DRec) : ExOut := ExOut.branch d (condLt d.op1 d.op2)

/-- The whole of BLT. -/
def execBlt (rs1 rs2 : RegIdx) (off12 : BitVec 12) (s : State) : Host.Outcome State Fault Refusal := runAlone (.blt rs1 rs2 off12) exBlt s

/-- BGE at Execute (R213). -/
def exBge (_p : Params) (d : DRec) : ExOut := ExOut.branch d (condGe d.op1 d.op2)

/-- The whole of BGE. -/
def execBge (rs1 rs2 : RegIdx) (off12 : BitVec 12) (s : State) : Host.Outcome State Fault Refusal := runAlone (.bge rs1 rs2 off12) exBge s

/-- BLTU at Execute (R214). -/
def exBltu (_p : Params) (d : DRec) : ExOut := ExOut.branch d (condLtu d.op1 d.op2)

/-- The whole of BLTU. -/
def execBltu (rs1 rs2 : RegIdx) (off12 : BitVec 12) (s : State) : Host.Outcome State Fault Refusal := runAlone (.bltu rs1 rs2 off12) exBltu s

/-- BGEU at Execute (R215). -/
def exBgeu (_p : Params) (d : DRec) : ExOut := ExOut.branch d (condGeu d.op1 d.op2)

/-- The whole of BGEU. -/
def execBgeu (rs1 rs2 : RegIdx) (off12 : BitVec 12) (s : State) : Host.Outcome State Fault Refusal := runAlone (.bgeu rs1 rs2 off12) exBgeu s

/-- JAL at Execute: the link, and a control hazard to `pc + immJ` (R216). -/
def exJal (_p : Params) (d : DRec) : ExOut := ExOut.jump d d.jalTarget

/-- The whole of JAL. -/
def execJal (rd : RegIdx) (off20 : BitVec 20) (s : State) : Host.Outcome State Fault Refusal := runAlone (.jal rd off20) exJal s

/-- JALR at Execute: the link, and a control hazard to `(op1 + immI) AND 0xFFFFFFFE` (R217). -/
def exJalr (_p : Params) (d : DRec) : ExOut := ExOut.jump d d.jalrTarget

/-- The whole of JALR. -/
def execJalr (rd rs1 : RegIdx) (imm12 : BitVec 12) (s : State) : Host.Outcome State Fault Refusal := runAlone (.jalr rd rs1 imm12) exJalr s

end Sys2Proof.Machine
end

