-- ==== Sys2Proof/Machine/Fused.lean ====
section
/-! DEFINITION. The integer fused multiply-accumulate kinds (spec/45_fused_multiply.md R260 to R266). -/

namespace Sys2Proof.Machine

/-- FMADD at Execute: `a * b + c`, modulo 2^32 (R260). -/
def exFmadd (_p : Params) (d : DRec) : ExOut := ExOut.alu (d.op1 * d.op2 + d.op3)

/-- The whole of FMADD. -/
def execFmadd (rd rs1 rs2 rs3 : RegIdx) (rm : BitVec 3) (s : State) : Host.Outcome State Fault Refusal := runAlone (.fmadd rd rs1 rs2 rs3 rm) exFmadd s

/-- FMSUB at Execute: `a * b - c`, modulo 2^32 (R261). -/
def exFmsub (_p : Params) (d : DRec) : ExOut := ExOut.alu (d.op1 * d.op2 - d.op3)

/-- The whole of FMSUB. -/
def execFmsub (rd rs1 rs2 rs3 : RegIdx) (rm : BitVec 3) (s : State) : Host.Outcome State Fault Refusal := runAlone (.fmsub rd rs1 rs2 rs3 rm) exFmsub s

/-- FNMSUB at Execute: `-(a * b) + c`, modulo 2^32 (R262). -/
def exFnmsub (_p : Params) (d : DRec) : ExOut := ExOut.alu (-(d.op1 * d.op2) + d.op3)

/-- The whole of FNMSUB. -/
def execFnmsub (rd rs1 rs2 rs3 : RegIdx) (rm : BitVec 3) (s : State) : Host.Outcome State Fault Refusal := runAlone (.fnmsub rd rs1 rs2 rs3 rm) exFnmsub s

/-- FNMADD at Execute: `-(a * b) - c`, modulo 2^32 (R263). -/
def exFnmadd (_p : Params) (d : DRec) : ExOut := ExOut.alu (-(d.op1 * d.op2) - d.op3)

/-- The whole of FNMADD. -/
def execFnmadd (rd rs1 rs2 rs3 : RegIdx) (rm : BitVec 3) (s : State) : Host.Outcome State Fault Refusal := runAlone (.fnmadd rd rs1 rs2 rs3 rm) exFnmadd s

end Sys2Proof.Machine
end

