-- ==== Sys2Proof/Machine/IntegerAlu.lean ====
section
/-! DEFINITION. The integer register-immediate and register-register kinds (spec/40_integer_alu.md R150 to R179). `a` is
`op1`, `b` is `op2`, both after forwarding (R150). -/

namespace Sys2Proof.Machine

/-- ADDI at Execute: `a + imm`, modulo 2^32 (R160). -/
def exAddi (_p : Params) (d : DRec) : ExOut := ExOut.alu (d.op1 + d.imm)

/-- The whole of ADDI. -/
def execAddi (rd rs1 : RegIdx) (imm12 : BitVec 12) (s : State) : Host.Outcome State Fault Refusal := runAlone (.addi rd rs1 imm12) exAddi s

/-- SLTI at Execute: 1 if `a <s imm`, else 0 (R161). -/
def exSlti (_p : Params) (d : DRec) : ExOut := ExOut.alu (boolWord (signedLess d.op1 d.imm))

/-- The whole of SLTI. -/
def execSlti (rd rs1 : RegIdx) (imm12 : BitVec 12) (s : State) : Host.Outcome State Fault Refusal := runAlone (.slti rd rs1 imm12) exSlti s

/-- SLTIU at Execute: 1 if `a <u imm` (the immediate sign-extended first), else 0 (R162). -/
def exSltiu (_p : Params) (d : DRec) : ExOut := ExOut.alu (boolWord (unsignedLess d.op1 d.imm))

/-- The whole of SLTIU. -/
def execSltiu (rd rs1 : RegIdx) (imm12 : BitVec 12) (s : State) : Host.Outcome State Fault Refusal := runAlone (.sltiu rd rs1 imm12) exSltiu s

/-- XORI at Execute: `a XOR imm` (R163). -/
def exXori (_p : Params) (d : DRec) : ExOut := ExOut.alu (d.op1 ^^^ d.imm)

/-- The whole of XORI. -/
def execXori (rd rs1 : RegIdx) (imm12 : BitVec 12) (s : State) : Host.Outcome State Fault Refusal := runAlone (.xori rd rs1 imm12) exXori s

/-- ORI at Execute: `a OR imm` (R164). -/
def exOri (_p : Params) (d : DRec) : ExOut := ExOut.alu (d.op1 ||| d.imm)

/-- The whole of ORI. -/
def execOri (rd rs1 : RegIdx) (imm12 : BitVec 12) (s : State) : Host.Outcome State Fault Refusal := runAlone (.ori rd rs1 imm12) exOri s

/-- ANDI at Execute: `a AND imm` (R165). -/
def exAndi (_p : Params) (d : DRec) : ExOut := ExOut.alu (d.op1 &&& d.imm)

/-- The whole of ANDI. -/
def execAndi (rd rs1 : RegIdx) (imm12 : BitVec 12) (s : State) : Host.Outcome State Fault Refusal := runAlone (.andi rd rs1 imm12) exAndi s

/-- SLLI at Execute: `a << shamt` (R166). -/
def exSlli (_p : Params) (d : DRec) : ExOut := ExOut.alu (d.op1 <<< d.imm.toNat)

/-- The whole of SLLI. -/
def execSlli (rd rs1 : RegIdx) (shamt : BitVec 5) (s : State) : Host.Outcome State Fault Refusal := runAlone (.slli rd rs1 shamt) exSlli s

/-- SRLI at Execute: `a >>u shamt` (R167). -/
def exSrli (_p : Params) (d : DRec) : ExOut := ExOut.alu (d.op1 >>> d.imm.toNat)

/-- The whole of SRLI. -/
def execSrli (rd rs1 : RegIdx) (shamt : BitVec 5) (s : State) : Host.Outcome State Fault Refusal := runAlone (.srli rd rs1 shamt) exSrli s

/-- SRAI at Execute: `a >>s shamt` (R168). -/
def exSrai (_p : Params) (d : DRec) : ExOut := ExOut.alu (d.op1.sshiftRight d.imm.toNat)

/-- The whole of SRAI. -/
def execSrai (rd rs1 : RegIdx) (shamt : BitVec 5) (s : State) : Host.Outcome State Fault Refusal := runAlone (.srai rd rs1 shamt) exSrai s

/-- ADD at Execute: `a + b`, modulo 2^32 (R170). -/
def exAdd (_p : Params) (d : DRec) : ExOut := ExOut.alu (d.op1 + d.op2)

/-- The whole of ADD. -/
def execAdd (rd rs1 rs2 : RegIdx) (s : State) : Host.Outcome State Fault Refusal := runAlone (.add rd rs1 rs2) exAdd s

/-- SUB at Execute: `a - b`, modulo 2^32 (R171). -/
def exSub (_p : Params) (d : DRec) : ExOut := ExOut.alu (d.op1 - d.op2)

/-- The whole of SUB. -/
def execSub (rd rs1 rs2 : RegIdx) (s : State) : Host.Outcome State Fault Refusal := runAlone (.sub rd rs1 rs2) exSub s

/-- SLL at Execute: `a << b[4:0]` (R172). -/
def exSll (_p : Params) (d : DRec) : ExOut := ExOut.alu (d.op1 <<< shiftAmount d.op2)

/-- The whole of SLL. -/
def execSll (rd rs1 rs2 : RegIdx) (s : State) : Host.Outcome State Fault Refusal := runAlone (.sll rd rs1 rs2) exSll s

/-- SLT at Execute: 1 if `a <s b`, else 0 (R173). -/
def exSlt (_p : Params) (d : DRec) : ExOut := ExOut.alu (boolWord (signedLess d.op1 d.op2))

/-- The whole of SLT. -/
def execSlt (rd rs1 rs2 : RegIdx) (s : State) : Host.Outcome State Fault Refusal := runAlone (.slt rd rs1 rs2) exSlt s

/-- SLTU at Execute: 1 if `a <u b`, else 0 (R174). -/
def exSltu (_p : Params) (d : DRec) : ExOut := ExOut.alu (boolWord (unsignedLess d.op1 d.op2))

/-- The whole of SLTU. -/
def execSltu (rd rs1 rs2 : RegIdx) (s : State) : Host.Outcome State Fault Refusal := runAlone (.sltu rd rs1 rs2) exSltu s

/-- XOR at Execute: `a XOR b` (R175). -/
def exXor (_p : Params) (d : DRec) : ExOut := ExOut.alu (d.op1 ^^^ d.op2)

/-- The whole of XOR. -/
def execXor (rd rs1 rs2 : RegIdx) (s : State) : Host.Outcome State Fault Refusal := runAlone (.xor rd rs1 rs2) exXor s

/-- SRL at Execute: `a >>u b[4:0]` (R176). -/
def exSrl (_p : Params) (d : DRec) : ExOut := ExOut.alu (d.op1 >>> shiftAmount d.op2)

/-- The whole of SRL. -/
def execSrl (rd rs1 rs2 : RegIdx) (s : State) : Host.Outcome State Fault Refusal := runAlone (.srl rd rs1 rs2) exSrl s

/-- SRA at Execute: `a >>s b[4:0]` (R177). -/
def exSra (_p : Params) (d : DRec) : ExOut := ExOut.alu (d.op1.sshiftRight (shiftAmount d.op2))

/-- The whole of SRA. -/
def execSra (rd rs1 rs2 : RegIdx) (s : State) : Host.Outcome State Fault Refusal := runAlone (.sra rd rs1 rs2) exSra s

/-- OR at Execute: `a OR b` (R178). -/
def exOr (_p : Params) (d : DRec) : ExOut := ExOut.alu (d.op1 ||| d.op2)

/-- The whole of OR. -/
def execOr (rd rs1 rs2 : RegIdx) (s : State) : Host.Outcome State Fault Refusal := runAlone (.or rd rs1 rs2) exOr s

/-- AND at Execute: `a AND b` (R179). -/
def exAnd (_p : Params) (d : DRec) : ExOut := ExOut.alu (d.op1 &&& d.op2)

/-- The whole of AND. -/
def execAnd (rd rs1 rs2 : RegIdx) (s : State) : Host.Outcome State Fault Refusal := runAlone (.and rd rs1 rs2) exAnd s

end Sys2Proof.Machine
end

