-- ==== Sys2Proof/Machine/LoadsStores.lean ====
section
/-! DEFINITION. Loads and stores (spec/41_loads_stores.md R190 to R203): the address is computed at Execute, the access is
made at Memory. -/

namespace Sys2Proof.Machine

/-- LB at Execute: a load of one byte, sign-extended (R190). -/
def exLb (_p : Params) (d : DRec) : ExOut := ExOut.load d 1#3 true

/-- The whole of LB. -/
def execLb (rd rs1 : RegIdx) (imm12 : BitVec 12) (s : State) : Host.Outcome State Fault Refusal := runAlone (.lb rd rs1 imm12) exLb s

/-- LH at Execute: a load of two bytes, sign-extended (R191). -/
def exLh (_p : Params) (d : DRec) : ExOut := ExOut.load d 2#3 true

/-- The whole of LH. -/
def execLh (rd rs1 : RegIdx) (imm12 : BitVec 12) (s : State) : Host.Outcome State Fault Refusal := runAlone (.lh rd rs1 imm12) exLh s

/-- LW at Execute: a load of four bytes (R192). -/
def exLw (_p : Params) (d : DRec) : ExOut := ExOut.load d 4#3 false

/-- The whole of LW. -/
def execLw (rd rs1 : RegIdx) (imm12 : BitVec 12) (s : State) : Host.Outcome State Fault Refusal := runAlone (.lw rd rs1 imm12) exLw s

/-- LBU at Execute: a load of one byte, zero-extended (R193). -/
def exLbu (_p : Params) (d : DRec) : ExOut := ExOut.load d 1#3 false

/-- The whole of LBU. -/
def execLbu (rd rs1 : RegIdx) (imm12 : BitVec 12) (s : State) : Host.Outcome State Fault Refusal := runAlone (.lbu rd rs1 imm12) exLbu s

/-- LHU at Execute: a load of two bytes, zero-extended (R194). -/
def exLhu (_p : Params) (d : DRec) : ExOut := ExOut.load d 2#3 false

/-- The whole of LHU. -/
def execLhu (rd rs1 : RegIdx) (imm12 : BitVec 12) (s : State) : Host.Outcome State Fault Refusal := runAlone (.lhu rd rs1 imm12) exLhu s

/-- SB at Execute: a store of the low byte of `x[rs2]` (R196). -/
def exSb (_p : Params) (d : DRec) : ExOut := ExOut.store d 1#3

/-- The whole of SB. -/
def execSb (rs1 rs2 : RegIdx) (imm12 : BitVec 12) (s : State) : Host.Outcome State Fault Refusal := runAlone (.sb rs1 rs2 imm12) exSb s

/-- SH at Execute: a store of the low two bytes of `x[rs2]` (R197). -/
def exSh (_p : Params) (d : DRec) : ExOut := ExOut.store d 2#3

/-- The whole of SH. -/
def execSh (rs1 rs2 : RegIdx) (imm12 : BitVec 12) (s : State) : Host.Outcome State Fault Refusal := runAlone (.sh rs1 rs2 imm12) exSh s

/-- SW at Execute: a store of all four bytes of `x[rs2]` (R198). -/
def exSw (_p : Params) (d : DRec) : ExOut := ExOut.store d 4#3

/-- The whole of SW. -/
def execSw (rs1 rs2 : RegIdx) (imm12 : BitVec 12) (s : State) : Host.Outcome State Fault Refusal := runAlone (.sw rs1 rs2 imm12) exSw s

end Sys2Proof.Machine
end

