-- ==== Sys2Proof/Machine/MulDiv.lean ====
section
/-! DEFINITION. Integer multiply, divide and remainder (spec/46_multiply_divide.md R270 to R281). -/

namespace Sys2Proof.Machine

/-- Bits 63 to 32 of an exact product (R271, R274, R275): the floor of the product by 2^32, narrowed. -/
def highWord (product : Int) : Word := BitVec.ofInt 32 (product / 2 ^ 32)

/-- A corner of DIVU and REMU: division by zero (R280). -/
def unsignedCorner (_a b : Word) : Bool := decide (b = 0#32)

/-- A corner of DIV and REM: division by zero, or the most negative number by -1 (R280). -/
def signedCorner (a b : Word) : Bool :=
  decide (b = 0#32) || (decide (a = 0x80000000#32) && decide (b = 0xFFFFFFFF#32))

/-- A division: on a corner, DivideFault or the RISC-V result as `DIV_CORNER` says (R280), else the value. -/
def divideOut (p : Params) (k : Kind) (d : DRec) (corner : Bool) (riscV value : Word) : ExOut :=
  if corner then
    match p.divCorner with
    | .fault => ExOut.raise (.divideFault k d.op1 d.op2)
    | .riscV => ExOut.alu riscV
  else ExOut.alu value

/-- MUL at Execute: the low 32 bits of the product (R270). -/
def exMul (_p : Params) (d : DRec) : ExOut := ExOut.alu (d.op1 * d.op2)

/-- The whole of MUL. -/
def execMul (rd rs1 rs2 : RegIdx) (s : State) : Host.Outcome State Fault Refusal := runAlone (.mul rd rs1 rs2) exMul s

/-- MULH at Execute: the high 32 bits of the 64-bit signed product (R271). -/
def exMulh (_p : Params) (d : DRec) : ExOut := ExOut.alu (highWord (d.op1.toInt * d.op2.toInt))

/-- The whole of MULH. -/
def execMulh (rd rs1 rs2 : RegIdx) (s : State) : Host.Outcome State Fault Refusal := runAlone (.mulh rd rs1 rs2) exMulh s

/-- MULHSU at Execute: the high 32 bits of the 64-bit signed-by-unsigned product (R274). -/
def exMulhsu (_p : Params) (d : DRec) : ExOut := ExOut.alu (highWord (d.op1.toInt * (d.op2.toNat : Int)))

/-- The whole of MULHSU. -/
def execMulhsu (rd rs1 rs2 : RegIdx) (s : State) : Host.Outcome State Fault Refusal := runAlone (.mulhsu rd rs1 rs2) exMulhsu s

/-- MULHU at Execute: the high 32 bits of the 64-bit unsigned product (R275). -/
def exMulhu (_p : Params) (d : DRec) : ExOut := ExOut.alu (highWord ((d.op1.toNat : Int) * (d.op2.toNat : Int)))

/-- The whole of MULHU. -/
def execMulhu (rd rs1 rs2 : RegIdx) (s : State) : Host.Outcome State Fault Refusal := runAlone (.mulhu rd rs1 rs2) exMulhu s

/-- DIV at Execute: the signed quotient rounded toward zero (R281), with the corners of R280 (R272). -/
def exDiv (p : Params) (d : DRec) : ExOut :=
  divideOut p .div d (signedCorner d.op1 d.op2) (if d.op2 = 0#32 then 0xFFFFFFFF#32 else 0x80000000#32) (BitVec.ofInt 32 (d.op1.toInt.tdiv d.op2.toInt))

/-- The whole of DIV. -/
def execDiv (rd rs1 rs2 : RegIdx) (s : State) : Host.Outcome State Fault Refusal := runAlone (.div rd rs1 rs2) exDiv s

/-- REM at Execute: the signed remainder, with the sign of the dividend (R281), with the corners of R280 (R273). -/
def exRem (p : Params) (d : DRec) : ExOut :=
  divideOut p .rem d (signedCorner d.op1 d.op2) (if d.op2 = 0#32 then d.op1 else 0#32) (BitVec.ofInt 32 (d.op1.toInt.tmod d.op2.toInt))

/-- The whole of REM. -/
def execRem (rd rs1 rs2 : RegIdx) (s : State) : Host.Outcome State Fault Refusal := runAlone (.rem rd rs1 rs2) exRem s

/-- DIVU at Execute: the unsigned quotient, rounded down (R281), with the corners of R280 (R276). -/
def exDivu (p : Params) (d : DRec) : ExOut :=
  divideOut p .divu d (unsignedCorner d.op1 d.op2) (0xFFFFFFFF#32) (BitVec.ofNat 32 (d.op1.toNat / d.op2.toNat))

/-- The whole of DIVU. -/
def execDivu (rd rs1 rs2 : RegIdx) (s : State) : Host.Outcome State Fault Refusal := runAlone (.divu rd rs1 rs2) exDivu s

/-- REMU at Execute: the unsigned remainder (R281), with the corners of R280 (R277). -/
def exRemu (p : Params) (d : DRec) : ExOut :=
  divideOut p .remu d (unsignedCorner d.op1 d.op2) (d.op1) (BitVec.ofNat 32 (d.op1.toNat % d.op2.toNat))

/-- The whole of REMU. -/
def execRemu (rd rs1 rs2 : RegIdx) (s : State) : Host.Outcome State Fault Refusal := runAlone (.remu rd rs1 rs2) exRemu s

end Sys2Proof.Machine
end

