-- ==== Sys2Proof/Machine/SystemCall.lean ====
section
/-! DEFINITION. The system call instruction (spec/44_system_call.md R240 to R252). -/

namespace Sys2Proof.Machine

/-- ECALL at Execute: nothing is computed; calls 4 and 5 make it a load-class producer of `x10` (R241). -/
def exEcall (_p : Params) (d : DRec) : ExOut :=
  let input := decide (d.op2 = 4#32) || decide (d.op2 = 5#32)
  { ExOut.empty with writeReg := input, loadClass := input }

/-- The whole of ECALL; the call itself is made at Memory (R242 to R249, Machine/MemoryStage.lean). -/
def execEcall (s : State) : Host.Outcome State Fault Refusal := runAlone .ecall exEcall s

end Sys2Proof.Machine
end

