-- ==== Sys2Proof/Machine/UpperImmediate.lean ====
section
/-! DEFINITION. The upper-immediate kinds (spec/43_upper_immediate.md R230, R231). -/

namespace Sys2Proof.Machine

/-- LUI at Execute: `immU` (R230). -/
def exLui (_p : Params) (d : DRec) : ExOut := ExOut.alu d.imm

/-- The whole of LUI. -/
def execLui (rd : RegIdx) (imm20 : BitVec 20) (s : State) : Host.Outcome State Fault Refusal := runAlone (.lui rd imm20) exLui s

/-- AUIPC at Execute: `pc + immU`, with the instruction's own address (R231). -/
def exAuipc (_p : Params) (d : DRec) : ExOut := ExOut.alu (d.pc + d.imm)

/-- The whole of AUIPC. -/
def execAuipc (rd : RegIdx) (imm20 : BitVec 20) (s : State) : Host.Outcome State Fault Refusal := runAlone (.auipc rd imm20) exAuipc s

end Sys2Proof.Machine
end

