-- ==== Sys2Proof/Machine/AluUnit.lean ====
section
/-! DEFINITION. The `alu_unit` (spec/10_state.md R64): the Execute rule of each kind, the same definitions that the meanings of
the dispatch are made of. -/

namespace Sys2Proof.Machine

/-- The kind's rule at Execute (R325). -/
def executeKind (k : Kind) (p : Params) (d : DRec) : ExOut :=
  match k with
  | .lui => exLui p d
  | .auipc => exAuipc p d
  | .jal => exJal p d
  | .jalr => exJalr p d
  | .beq => exBeq p d
  | .bne => exBne p d
  | .blt => exBlt p d
  | .bge => exBge p d
  | .bltu => exBltu p d
  | .bgeu => exBgeu p d
  | .lb => exLb p d
  | .lh => exLh p d
  | .lw => exLw p d
  | .lbu => exLbu p d
  | .lhu => exLhu p d
  | .sb => exSb p d
  | .sh => exSh p d
  | .sw => exSw p d
  | .addi => exAddi p d
  | .slti => exSlti p d
  | .sltiu => exSltiu p d
  | .xori => exXori p d
  | .ori => exOri p d
  | .andi => exAndi p d
  | .slli => exSlli p d
  | .srli => exSrli p d
  | .srai => exSrai p d
  | .add => exAdd p d
  | .sub => exSub p d
  | .sll => exSll p d
  | .slt => exSlt p d
  | .sltu => exSltu p d
  | .xor => exXor p d
  | .srl => exSrl p d
  | .sra => exSra p d
  | .or => exOr p d
  | .and => exAnd p d
  | .ecall => exEcall p d
  | .fmadd => exFmadd p d
  | .fmsub => exFmsub p d
  | .fnmsub => exFnmsub p d
  | .fnmadd => exFnmadd p d
  | .mul => exMul p d
  | .mulh => exMulh p d
  | .div => exDiv p d
  | .rem => exRem p d
  | .mulhsu => exMulhsu p d
  | .mulhu => exMulhu p d
  | .divu => exDivu p d
  | .remu => exRemu p d

end Sys2Proof.Machine
end

