-- ==== Sys2Proof/Machine/Stages.lean ====
section
/-! DEFINITION. The five stages of step 3 of a cycle as functions of the state at its start (spec/48_pipeline_cycle.md R302, R322
to R328). A stage gives its next-register value, its pending effects and at most one event. The hazard tiers
are in Hazards.lean. -/

namespace Sys2Proof.Machine

/-! ## Fetch (R322, R323) -/

/-- What Fetch returns. -/
structure FetchOut where
  fn : FRec
  pcNext : Word
  event : Option FatalEvent
deriving DecidableEq, Repr

/-- When a fault found by Fetch or Decode is an event of that stage (R323, R324): only under `SPEC_FAULT = Immediate`. -/
def immediateEvent (p : Params) (e : FatalEvent) : Option FatalEvent :=
  if p.specFault = .immediate then some e else none

/-- Fetch reads the word at `pc` in every cycle (R322); a fetch fault poisons the record (R323). -/
def State.fetchStage (s : State) : FetchOut :=
  match s.memRead s.pc 4 .fetch with
  | .ok w => { fn := ⟨s.pc, w, none⟩, pcNext := s.pc + 4#32, event := none }
  | .error e => { fn := ⟨s.pc, 0#32, some e⟩, pcNext := s.pc + 4#32, event := immediateEvent s.params e }

/-! ## Decode (R324) -/

/-- What Decode returns. -/
structure DecodeOut where
  dn : Option DRec
  env : Env
  call : Option PredictorCall
  event : Option FatalEvent
deriving DecidableEq, Repr

/-- Decode of a fetched record (R324): the poison goes on, a word that is no instruction becomes a Poison record, an
instruction is decoded with the operands as the register file holds them. -/
def State.decodeRecord (s : State) (f : FRec) : DecodeOut :=
  match f.poison with
  | some e => { dn := some (poisonRecord f.pc f.inst e), env := s.env, call := none, event := none }
  | none =>
    match decode s.params.mSet f.inst with
    | .error r =>
      let e := FatalEvent.decodeError f.pc f.inst r
      { dn := some (poisonRecord f.pc f.inst e), env := s.env, call := none, event := immediateEvent s.params e }
    | .ok i =>
      let dc := s.decodeInstr f.pc f.inst i
      { dn := some dc.record, env := dc.env, call := dc.call, event := none }

/-- The Decode stage. -/
def State.decodeStage (s : State) : DecodeOut :=
  match s.f.content with
  | none => { dn := none, env := s.env, call := none, event := none }
  | some f => s.decodeRecord f

/-! ## Execute (R325) -/

/-- What Execute returns. -/
structure ExecuteOut where
  en : Option ERec
  ctrl : Option Word
  penalty : Nat
  call : Option PredictorCall
  hits : Nat
  misses : Nat
  event : Option FatalEvent
deriving DecidableEq, Repr

/-- Execute of a bubble (R45). -/
def ExecuteOut.bubble : ExecuteOut where
  en := none
  ctrl := none
  penalty := 0
  call := none
  hits := 0
  misses := 0
  event := none

/-- Execute of a decoded record (R325): a Poison raises its event, a kind's rule fills the record or raises. -/
def executeRecord (p : Params) (d : DRec) : ExecuteOut :=
  match d.kind with
  | .poison e => { ExecuteOut.bubble with event := some e }
  | .real k =>
    let o := executeKind k p d
    match o.event with
    | some e => { ExecuteOut.bubble with event := some e }
    | none =>
      { en := some (o.record k d), ctrl := o.ctrl, penalty := mulPenalty k, call := o.update d, hits := o.hits d,
        misses := o.misses d, event := none }

/-- The Execute stage. -/
def State.executeStage (s : State) : ExecuteOut :=
  match s.d.content with
  | none => ExecuteOut.bubble
  | some d => executeRecord s.params d

/-! ## Memory (R327) -/

/-- The Memory stage: nothing on a bubble, else what MemoryStage.lean says. -/
def State.memoryStage (s : State) : Option MemResult := s.e.content.map s.memoryAccess

/-! ## WriteBack (R328) -/

/-- 1 if WriteBack retires an instruction in this cycle (R341). -/
def State.retires (s : State) : Nat := if s.m.content.isSome then 1 else 0

/-- The WriteBack stage's register write, at the merge (R34, R331). -/
def State.writeBackStage (s : State) : State :=
  match s.m.content with
  | none => s
  | some m => s.writeBack m

end Sys2Proof.Machine
end

