-- ==== Sys2Proof/Machine/Hazards.lean ====
section
/-! DEFINITION. The hazard and forwarding logic (spec/49_hazards_forwarding_stall.md R350 to R362): three tiers that override the
operands of the record just decoded, or claim a stall. It holds no state across cycles (R362). -/

namespace Sys2Proof.Machine

/-- What a tier sees of a producer (R65, R351). -/
structure Producer where
  dest : RegIdx
  value : Word
  writeReg : Bool
  loadClass : Bool
deriving DecidableEq, Repr

def ERec.producer (e : ERec) : Producer := ⟨e.dest, e.out, e.writeReg, e.loadClass⟩
def MRec.producer (m : MRec) : Producer := ⟨m.dest, m.out, m.writeReg, m.loadClass⟩

/-- The class of a claim (R360). -/
inductive ClaimClass where
  | data | memory
deriving DecidableEq, Repr

/-- A claim: the cycle's stall length, 1 to 3, and its class (R48, R360). -/
structure Claim where
  length : BitVec 2
  cls : ClaimClass
deriving DecidableEq, Repr

/-- Memory exactly when the producer is load-class (R360). -/
def Producer.claimClass (p : Producer) : ClaimClass := if p.loadClass then .memory else .data

/-- The record reads register `r` through some operand (R350): a Poison record reads none. -/
def DRec.reads (d : DRec) (r : RegIdx) : Bool :=
  match d.kind with
  | .poison _ => false
  | .real k => (k.readsRs1 && d.rs1 == r) || (k.readsRs2 && d.rs2 == r) || (k.readsRs3 && d.rs3 == r)

/-- The record with `v` in every operand it reads from register `r` (R354). -/
def DRec.forward (d : DRec) (r : RegIdx) (v : Word) : DRec :=
  match d.kind with
  | .poison _ => d
  | .real k =>
    { d with op1 := if k.readsRs1 && d.rs1 == r then v else d.op1
             op2 := if k.readsRs2 && d.rs2 == r then v else d.op2
             op3 := if k.readsRs3 && d.rs3 == r then v else d.op3 }

/-- The values the tiers pass on in one cycle (R48, R354): the consumer, the claim, the registers already supplied and how
many tiers have forwarded. -/
structure Hazard where
  dn : DRec
  claim : Option Claim
  supplied : List RegIdx
  fwdTiers : Nat
deriving DecidableEq, Repr

/-- A tier forwards (R354). -/
def Hazard.forward (h : Hazard) (p : Producer) : Hazard :=
  { h with dn := h.dn.forward p.dest p.value, supplied := p.dest :: h.supplied, fwdTiers := h.fwdTiers + 1 }

/-- A tier claims `n`: the first claim wins (R360). -/
def Hazard.claims (h : Hazard) (n : BitVec 2) (p : Producer) : Hazard :=
  match h.claim with
  | some _ => h
  | none => { h with claim := some ⟨n, p.claimClass⟩ }

/-- The match of R352. -/
def Hazard.matched (h : Hazard) (p : Producer) : Bool := p.writeReg && p.dest != 0#5 && h.dn.reads p.dest

/-- The match by which tiers 2 and 3 forward: R352, less its test of the destination under `X0_TRANSIENT` (R353), on a
register that no earlier tier supplied (R354). -/
def Hazard.laterMatch (h : Hazard) (x0Transient : Bool) (p : Producer) : Bool :=
  p.writeReg && (x0Transient || p.dest != 0#5) && h.dn.reads p.dest && !(h.supplied.contains p.dest)

/-- Tier 1 (R355, R356, R357). -/
def Hazard.tier1 (h : Hazard) (par : Params) (p : Producer) : Hazard :=
  if h.matched p then
    if par.forwarding then (if p.loadClass then h.claims 2#2 p else h.forward p) else h.claims 3#2 p
  else h

/-- Tiers 2 and 3, which differ in the length they claim with forwarding disabled (R358, R359). -/
def Hazard.tierLater (h : Hazard) (par : Params) (n : BitVec 2) (p : Producer) : Hazard :=
  if par.forwarding then (if h.laterMatch par.x0Transient p then h.forward p else h)
  else (if h.matched p then h.claims n p else h)

/-- Tier 2 (R358). -/
def Hazard.tier2 (h : Hazard) (par : Params) (p : Producer) : Hazard := h.tierLater par 2#2 p

/-- Tier 3 (R359). -/
def Hazard.tier3 (h : Hazard) (par : Params) (p : Producer) : Hazard := h.tierLater par 1#2 p

/-- A tier whose stage has no producer does nothing (R351). -/
def Hazard.optional (h : Hazard) (tier : Hazard → Params → Producer → Hazard) (par : Params) :
    Option Producer → Hazard
  | none => h
  | some p => tier h par p

/-- The tiers in their order over the three producers of the cycle (R354, R360). -/
def hazardTiers (par : Params) (dn : DRec) (p1 p2 p3 : Option Producer) : Hazard :=
  let h0 : Hazard := { dn := dn, claim := none, supplied := [], fwdTiers := 0 }
  ((h0.optional Hazard.tier1 par p1).optional Hazard.tier2 par p2).optional Hazard.tier3 par p3

/-- What the hazard logic returns (R65): the consumer after forwarding, the claim and the number of tiers that forwarded. -/
structure HazardOut where
  dn : Option DRec
  claim : Option Claim
  fwdTiers : Nat
deriving DecidableEq, Repr

/-- The hazard logic of a cycle: with a bubble in `Dn` there is no consumer (R350, R362). -/
def hazardLogic (par : Params) (dn : Option DRec) (en : Option ERec) (mn m : Option MRec) : HazardOut :=
  match dn with
  | none => { dn := none, claim := none, fwdTiers := 0 }
  | some d =>
    let h := hazardTiers par d (en.map ERec.producer) (mn.map MRec.producer) (m.map MRec.producer)
    { dn := some h.dn, claim := h.claim, fwdTiers := h.fwdTiers }

end Sys2Proof.Machine
end

