-- ==== Sys2Proof/Machine/Fsm.lean ====
section
/-! DEFINITION. The stall and PC-restore FSM (spec/49_hazards_forwarding_stall.md R370 to R375) and the pipeline register array
with its overrides (spec/10_state.md R46, R66; spec/48_pipeline_cycle.md R334). -/

namespace Sys2Proof.Machine

/-- Commit of one pipeline register (R334): its next value, unless it is marked stalled. -/
def Slot.commit {α : Type} (r : Slot α) (next : Option α) : Slot α :=
  if r.stall = 0#2 then { r with content := next } else { r with stall := r.stall - 1#2 }

/-- A register made a bubble by steps 4 to 7. -/
def Slot.bubble {α : Type} (r : Slot α) : Slot α := { r with content := none }

/-- A register made a bubble when a condition holds. -/
def Slot.bubbleIf {α : Type} (c : Bool) (r : Slot α) : Slot α := if c then r.bubble else r

/-- Step 1 (R320): restore when `countdown = 1` (R374), tick when it is 2 or 3 (R372), else nothing. -/
def State.restoreOrTick (s : State) : State :=
  if s.fsm.countdown = 1#2 then
    { s with f := { s.f with content := s.fsm.saved }, pc := s.fsm.restorePC, fsm := { s.fsm with countdown := 0#2 } }
  else if s.fsm.countdown = 0#2 then s
  else { s with fsm := { s.fsm with countdown := s.fsm.countdown - 1#2 } }

/-- Step 4's consumption of the forward-fetcher flag (R373): the flag falls. Its bubble in `F` is made by `nextF`. -/
def StallFsm.consumeFlag (q : StallFsm) : StallFsm := { q with forwardFetcher := false }

/-- Arming on a claim (R371): `fcur` is this cycle's decode input and `fpc` its fetch address. -/
def StallFsm.arm (q : StallFsm) (claim : Option Claim) (fcur : Option FRec) (fpc : Word) : StallFsm :=
  match claim with
  | none => q
  | some c =>
    { countdown := c.length, saved := fcur, restorePC := fpc, forwardFetcher := q.forwardFetcher || (c.length == 3#2) }

/-- Standing down on a control hazard (R375): what was saved stays, dead. -/
def StallFsm.standDown (q : StallFsm) (ctrl : Option Word) : StallFsm :=
  match ctrl with
  | none => q
  | some _ => { q with countdown := 0#2, forwardFetcher := false }

/-- The claim bubbles `F` too: its length is 2 or 3 (R371). -/
def claimBubblesF (claim : Option Claim) : Bool :=
  match claim with
  | none => false
  | some c => decide (2 ≤ c.length.toNat)

/-- The predicted-taken redirect of step 7 (R338): its target, if its condition holds. -/
def redirectTarget (dn : Option DRec) (claim : Option Claim) (ctrl : Option Word) : Option Word :=
  match dn with
  | none => none
  | some d => if claim.isNone && ctrl.isNone && d.predictedBranch then some d.predictedPC else none

/-- The next `pc` (R37): a control-hazard target, else a predicted target, else the following word. -/
def choosePC (pcNext : Word) (ctrl redirect : Option Word) : Word :=
  match ctrl with
  | some t => t
  | none => match redirect with
    | some t => t
    | none => pcNext

end Sys2Proof.Machine
end

