-- ==== Sys2Proof/Machine/Cycle.lean ====
section
/-! DEFINITION. One cycle of the core (spec/48_pipeline_cycle.md R345): steps 1 and 2, the stages, the merge (R331 to R333) and
steps 4 to 8. -/

namespace Sys2Proof.Machine

/-- What the stages of one cycle return, with the Memory stage's part already known to be no event. -/
structure CycleOut where
  fet : FetchOut
  dec : DecodeOut
  exe : ExecuteOut
  mn : Option MRec
  fx : Effects
  haz : HazardOut
deriving DecidableEq, Repr

/-- The stages of step 3 given the Memory stage's result (R322 to R328), the tiers last. -/
def State.stages (s : State) (mn : Option MRec) (fx : Effects) : CycleOut :=
  let dec := s.decodeStage
  let exe := s.executeStage
  { fet := s.fetchStage, dec := dec, exe := exe, mn := mn, fx := fx,
    haz := hazardLogic s.params dec.dn exe.en mn s.m.content }

/-- The event of the oldest of the three younger stages, Execute before Decode before Fetch (R332). -/
def CycleOut.youngerEvent (c : CycleOut) : Option FatalEvent :=
  match c.exe.event with
  | some e => some e
  | none => match c.dec.event with
    | some e => some e
    | none => c.fet.event

/-- Step 8 (R340 to R342). -/
def Counters.cycle (q : Counters) (c : CycleOut) (retire latency : Nat) : Counters where
  cycleCount := q.cycleCount + 1 + c.exe.penalty + latency
  instCount := q.instCount + retire
  dataHazardCount := q.dataHazardCount + c.haz.fwdTiers + (if c.haz.claim.map (·.cls) = some .data then 1 else 0)
  controlHazardCount := q.controlHazardCount + (if c.exe.ctrl.isSome then 1 else 0)
  memoryHazardCount := q.memoryHazardCount + (if c.haz.claim.map (·.cls) = some .memory then 1 else 0)
  branchHit := q.branchHit + c.exe.hits
  branchMiss := q.branchMiss + c.exe.misses

/-- The target of step 7, if it acts (R338). -/
def CycleOut.redirect (c : CycleOut) : Option Word := redirectTarget c.haz.dn c.haz.claim c.exe.ctrl

/-- `F` after steps 4 to 7 (R334, R373, R371, R337, R338). -/
def State.nextF (s : State) (c : CycleOut) : Slot FRec :=
  (s.f.commit (some c.fet.fn)).bubbleIf
    (s.fsm.forwardFetcher || claimBubblesF c.haz.claim || c.exe.ctrl.isSome || c.redirect.isSome)

/-- `D` after steps 4 to 6 (R334, R371, R337). -/
def State.nextD (s : State) (c : CycleOut) : Slot DRec :=
  (s.d.commit c.haz.dn).bubbleIf (c.haz.claim.isSome || c.exe.ctrl.isSome)

/-- The stall FSM after steps 4 to 6 (R373, R371, R375). -/
def State.nextFsm (s : State) (c : CycleOut) : StallFsm :=
  (s.fsm.consumeFlag.arm c.haz.claim s.f.content s.pc).standDown c.exe.ctrl

/-- Steps 4 to 8 after the merge without an event (R331, R334 to R342). -/
def State.complete (s : State) (c : CycleOut) : State :=
  let l := c.dec.env.drawLatencies c.fx.accesses
  let s1 := ({ s with env := l.2 }.logPredictor c.dec.call).logPredictor c.exe.call
  let s2 := s1.writeBackStage.applyEffects c.fx
  { s2 with f := s.nextF c
            d := s.nextD c
            e := s.e.commit c.exe.en
            m := s.m.commit c.mn
            fsm := s.nextFsm c
            pc := choosePC c.fet.pcNext c.exe.ctrl c.redirect
            counters := s.counters.cycle c s.retires l.1 }

/-- The merge when the Memory stage has no event (R331, R332): an event of a younger stage ends the run after the effects of
WriteBack and Memory; otherwise the cycle completes. -/
def State.merge (s : State) (c : CycleOut) : State :=
  match c.youngerEvent with
  | some e => ((s.writeBackStage.applyEffects c.fx).count 1 s.retires).raise e
  | none => s.complete c

/-- The merge when the Memory stage returned an event (R332): WriteBack's write, the characters a print-string call had
emitted before its fault (R243), and the end. -/
def State.mergeMemoryFault (s : State) (e : FatalEvent) (printed : List OutEvent) : State :=
  ((s.writeBackStage.emit printed).count 1 s.retires).raise e

/-- The merge with the exit event (R333). -/
def State.mergeExit (s : State) : State := (s.writeBackStage.count 1 (s.retires + 1)).exitRun

/-- Step 3, the merge and steps 4 to 8, from the state after the guards. -/
def State.afterGuards (s : State) : Host.Outcome State Fault Refusal :=
  match s.memoryStage with
  | some (.stuck f) => .fault f
  | some (.fatal e printed) => .next (s.mergeMemoryFault e printed)
  | some .exit => .next s.mergeExit
  | some (.done m fx) => .next (s.merge (s.stages (some m) fx))
  | none => .next (s.merge (s.stages none Effects.nothing))

/-- One cycle of a running core (R345). -/
def State.cycle (s : State) : Host.Outcome State Fault Refusal :=
  let s1 := s.restoreOrTick.forceX0
  if s1.guardFails then .next (s1.raise (.stackOverflow s1.sp)) else s1.afterGuards

/-- A cycle takes place only while the run status is `running` (R51, R300). -/
def State.cycleIfRunning (s : State) : Host.Outcome State Fault Refusal :=
  match s.status with
  | .running => s.cycle
  | .exited => .fault .runEnded
  | .fatal _ => .fault .runEnded

/-! ## Placing an instruction -/

/-- The decoder's record of word `w` at `pc` stands in `D`, `pc` is where the cycle that decoded it sends fetch (past it, or
to the target of a branch predicted taken, R338), and everything else in flight is a bubble: the pipeline as the
cycle that executes a lone instruction finds it. -/
def State.placeInD (s : State) (w : Word) : State :=
  let dec := s.decodeRecord ⟨s.pc, w, none⟩
  { s with f := Slot.empty
           d := ⟨dec.dn, 0#2⟩
           e := Slot.empty
           m := Slot.empty
           fsm := { s.fsm with countdown := 0#2, forwardFetcher := false }
           env := dec.env
           predictorLog := s.predictorLog ++ dec.call.toList
           pc := (dec.dn.map DRec.predictedNext).getD (s.pc + 4#32) }

/-- `M_SET` as the word needs it: `Full8` if only `Full8` decodes it, else as it was. -/
def mSetFor (p : Params) (w : Word) : MSet :=
  match decode p.mSet w with
  | .ok _ => p.mSet
  | .error _ => match decode .full8 w with
    | .ok _ => .full8
    | .error _ => p.mSet

/-- The program loader puts the word at `pc` (R92, R433) and it is in `D`, about to execute (notes/assumptions/4.md). -/
def State.placeWord (s : State) (w : Word) : State :=
  let s1 := { s with params := { s.params with mSet := mSetFor s.params w }
                     mem := if s.pc.toNat + 4 ≤ 2 ^ 32 then s.mem.writeLE s.pc.toNat 4 w else s.mem }
  s1.placeInD w

end Sys2Proof.Machine
end

