-- ==== Sys2Proof/Machine/Dispatch.lean ====
section
/-! DEFINITION. The dispatch: one arm per instruction, each one direct call of its meaning. -/

namespace Sys2Proof.Machine

def exec (i : Instr) (s : State) : Host.Outcome State Fault Refusal :=
  match i with
  | .lui rd imm20 => Sys2Proof.Machine.execLui rd imm20 s
  | .auipc rd imm20 => Sys2Proof.Machine.execAuipc rd imm20 s
  | .jal rd off20 => Sys2Proof.Machine.execJal rd off20 s
  | .jalr rd rs1 imm12 => Sys2Proof.Machine.execJalr rd rs1 imm12 s
  | .beq rs1 rs2 off12 => Sys2Proof.Machine.execBeq rs1 rs2 off12 s
  | .bne rs1 rs2 off12 => Sys2Proof.Machine.execBne rs1 rs2 off12 s
  | .blt rs1 rs2 off12 => Sys2Proof.Machine.execBlt rs1 rs2 off12 s
  | .bge rs1 rs2 off12 => Sys2Proof.Machine.execBge rs1 rs2 off12 s
  | .bltu rs1 rs2 off12 => Sys2Proof.Machine.execBltu rs1 rs2 off12 s
  | .bgeu rs1 rs2 off12 => Sys2Proof.Machine.execBgeu rs1 rs2 off12 s
  | .lb rd rs1 imm12 => Sys2Proof.Machine.execLb rd rs1 imm12 s
  | .lh rd rs1 imm12 => Sys2Proof.Machine.execLh rd rs1 imm12 s
  | .lw rd rs1 imm12 => Sys2Proof.Machine.execLw rd rs1 imm12 s
  | .lbu rd rs1 imm12 => Sys2Proof.Machine.execLbu rd rs1 imm12 s
  | .lhu rd rs1 imm12 => Sys2Proof.Machine.execLhu rd rs1 imm12 s
  | .sb rs1 rs2 imm12 => Sys2Proof.Machine.execSb rs1 rs2 imm12 s
  | .sh rs1 rs2 imm12 => Sys2Proof.Machine.execSh rs1 rs2 imm12 s
  | .sw rs1 rs2 imm12 => Sys2Proof.Machine.execSw rs1 rs2 imm12 s
  | .addi rd rs1 imm12 => Sys2Proof.Machine.execAddi rd rs1 imm12 s
  | .slti rd rs1 imm12 => Sys2Proof.Machine.execSlti rd rs1 imm12 s
  | .sltiu rd rs1 imm12 => Sys2Proof.Machine.execSltiu rd rs1 imm12 s
  | .xori rd rs1 imm12 => Sys2Proof.Machine.execXori rd rs1 imm12 s
  | .ori rd rs1 imm12 => Sys2Proof.Machine.execOri rd rs1 imm12 s
  | .andi rd rs1 imm12 => Sys2Proof.Machine.execAndi rd rs1 imm12 s
  | .slli rd rs1 shamt => Sys2Proof.Machine.execSlli rd rs1 shamt s
  | .srli rd rs1 shamt => Sys2Proof.Machine.execSrli rd rs1 shamt s
  | .srai rd rs1 shamt => Sys2Proof.Machine.execSrai rd rs1 shamt s
  | .add rd rs1 rs2 => Sys2Proof.Machine.execAdd rd rs1 rs2 s
  | .sub rd rs1 rs2 => Sys2Proof.Machine.execSub rd rs1 rs2 s
  | .sll rd rs1 rs2 => Sys2Proof.Machine.execSll rd rs1 rs2 s
  | .slt rd rs1 rs2 => Sys2Proof.Machine.execSlt rd rs1 rs2 s
  | .sltu rd rs1 rs2 => Sys2Proof.Machine.execSltu rd rs1 rs2 s
  | .xor rd rs1 rs2 => Sys2Proof.Machine.execXor rd rs1 rs2 s
  | .srl rd rs1 rs2 => Sys2Proof.Machine.execSrl rd rs1 rs2 s
  | .sra rd rs1 rs2 => Sys2Proof.Machine.execSra rd rs1 rs2 s
  | .or rd rs1 rs2 => Sys2Proof.Machine.execOr rd rs1 rs2 s
  | .and rd rs1 rs2 => Sys2Proof.Machine.execAnd rd rs1 rs2 s
  | .ecall => Sys2Proof.Machine.execEcall s
  | .fmadd rd rs1 rs2 rs3 rm => Sys2Proof.Machine.execFmadd rd rs1 rs2 rs3 rm s
  | .fmsub rd rs1 rs2 rs3 rm => Sys2Proof.Machine.execFmsub rd rs1 rs2 rs3 rm s
  | .fnmsub rd rs1 rs2 rs3 rm => Sys2Proof.Machine.execFnmsub rd rs1 rs2 rs3 rm s
  | .fnmadd rd rs1 rs2 rs3 rm => Sys2Proof.Machine.execFnmadd rd rs1 rs2 rs3 rm s
  | .mul rd rs1 rs2 => Sys2Proof.Machine.execMul rd rs1 rs2 s
  | .mulh rd rs1 rs2 => Sys2Proof.Machine.execMulh rd rs1 rs2 s
  | .div rd rs1 rs2 => Sys2Proof.Machine.execDiv rd rs1 rs2 s
  | .rem rd rs1 rs2 => Sys2Proof.Machine.execRem rd rs1 rs2 s
  | .mulhsu rd rs1 rs2 => Sys2Proof.Machine.execMulhsu rd rs1 rs2 s
  | .mulhu rd rs1 rs2 => Sys2Proof.Machine.execMulhu rd rs1 rs2 s
  | .divu rd rs1 rs2 => Sys2Proof.Machine.execDivu rd rs1 rs2 s
  | .remu rd rs1 rs2 => Sys2Proof.Machine.execRemu rd rs1 rs2 s

end Sys2Proof.Machine
end

