-- ==== Sys2Proof/Machine/Step.lean ====
section
/-! DEFINITION. The step of the machine: one cycle of the core (spec/48_pipeline_cycle.md R300, R345), which fetches, decodes,
executes, accesses memory and writes back for up to five instructions at once. Cycle.lean says what it does;
that a lone instruction run through it does what the dispatch's `exec` says is a statement about both. -/

namespace Sys2Proof.Machine

/-- One step: one cycle while the run status is `running`, else the fault `runEnded`. -/
def step (s : State) : Host.Outcome State Fault Refusal := s.cycleIfRunning

/-- `s` with the instruction whose bits are `w`'s low `nbits` bits placed so that the very next step executes it
(notes/assumptions/4.md). -/
def State.withFetchWord (s : State) (nbits w : Nat) : State := s.placeWord (BitVec.ofNat 32 (w % 2 ^ nbits))

end Sys2Proof.Machine
end

