-- ==== Sys2Proof/Safety.lean ====
section
/-! DEFINITION. The terms that the statements use: what a safe run is, the states that instructions are said to lead to, the
invariants of the pipeline, and the sequential machine that a pipeline state stands for. -/

namespace Sys2Proof.Machine

/-! ## Runs -/

/-- A state of a safe run: no fatal event has ended it (R408). -/
def State.safe (s : State) : Bool :=
  match s.status with
  | .fatal _ => false
  | _ => true

/-- The state that steps 3 to 8 of a cycle start from: after step 1 and after `x0` is forced (R320, R321). -/
def State.cycleStart (s : State) : State := s.restoreOrTick.forceX0

/-- One completed cycle: `s` steps to `t` and the run goes on (R300). -/
def State.Cycles (s t : State) : Prop := step s = .next t ∧ t.status = .running

/-! ## What a cycle does, for the statements about cycles -/

/-- The Memory stage ends without an event, with this record and these effects: nothing for a bubble in `E` (R327). -/
def State.MemoryDone (s : State) (mn : Option MRec) (fx : Effects) : Prop :=
  (s.e.content = none ∧ mn = none ∧ fx = Effects.nothing) ∨
    ∃ e m, s.e.content = some e ∧ s.memoryAccess e = .done m fx ∧ mn = some m

/-- A string of `n` readable nonzero bytes stands at `p` (R243). -/
def State.stringAt (s : State) (p : Word) (n : Nat) : Prop :=
  n < 2 ^ 32 ∧ ∀ k < n, accessOk s.params (p + BitVec.ofNat 32 k) 1 = true ∧ s.mem.read (p + BitVec.ofNat 32 k).toNat ≠ 0#8

/-- The characters of the `n` bytes at `p`, in order. -/
def State.charsAt (s : State) (p : Word) (n : Nat) : List OutEvent :=
  (List.range n).map (fun k => .char (s.mem.read (p + BitVec.ofNat 32 k).toNat))

/-- The outcome of a branch kind on two operands, none for another kind (R210 to R215). -/
def branchOutcome (k : Kind) (a b : Word) : Option Bool :=
  if k = .beq then some (decide (a = b))
  else if k = .bne then some (decide (a ≠ b))
  else if k = .blt then some (decide (a.toInt < b.toInt))
  else if k = .bge then some (decide (b.toInt ≤ a.toInt))
  else if k = .bltu then some (decide (a.toNat < b.toNat))
  else if k = .bgeu then some (decide (b.toNat ≤ a.toNat))
  else none

/-- The outcome of the branch in `D`, with the prediction it was decoded with: none if `D` holds no branch. -/
def State.resolved (s : State) : Option (DRec × Bool) :=
  s.d.content.bind fun d => match d.kind with
    | .poison _ => none
    | .real k => (branchOutcome k d.op1 d.op2).map (fun taken => (d, taken))

/-- The branch that a cycle decodes: the fetched record that step 1 leaves in `F`, if it decodes to one. -/
def State.decodedBranch (s : State) : Option (FRec × Instr) :=
  s.restoreOrTick.f.content.bind fun f =>
    if f.poison.isSome then none
    else match decode s.params.mSet f.inst with
      | .error _ => none
      | .ok i => if i.kind.isBranch then some (f, i) else none

/-! ## What instructions lead to -/

/-- The plain advance of an instruction: the next word, one instruction counted, and cycles added. -/
def State.advance (s : State) (cycles : Nat) : State :=
  { s with pc := s.pc + 4#32
           counters := { s.counters with cycleCount := s.counters.cycleCount + cycles
                                         instCount := s.counters.instCount + 1 } }

/-- The state after an instruction that writes `v` to `rd` and does nothing else but advance: `x0` is not written (R34). -/
def State.afterWrite (s : State) (rd : RegIdx) (v : Word) (penalty : Nat) : State := (s.writeReg rd v).advance penalty

/-- The latency that the memory reports for the next `n` data accesses is drawn and counted (R91). -/
def State.afterLatency (s : State) (n : Nat) : State :=
  let l := s.env.drawLatencies n
  { s with env := l.2, counters := { s.counters with cycleCount := s.counters.cycleCount + l.1 } }

/-- The state after a branch of kind `k` whose condition is `taken`: the predictor is asked once and told the outcome, the
counters move as R220 says, and the next instruction is where the outcome says (R219 to R221). -/
def State.afterBranch (s : State) (k : Kind) (rs1 rs2 : RegIdx) (offset : Word) (taken : Bool) : State :=
  let a := s.env.drawAnswer
  { s with
    env := a.2
    predictorLog := s.predictorLog ++ [.predict s.pc k (s.readReg rs1) (s.readReg rs2) offset a.1, .update s.pc taken]
    pc := if taken then s.pc + offset else s.pc + 4#32
    counters := { s.counters with
      instCount := s.counters.instCount + 1
      controlHazardCount := s.counters.controlHazardCount + (if taken = a.1 then 0 else 1)
      branchHit := s.counters.branchHit + (if taken = a.1 then 1 else 0)
      branchMiss := s.counters.branchMiss + (if taken = a.1 then 0 else 1) } }

/-- The state after a jump: the link written, the target next, one control hazard (R216, R217, R223). -/
def State.afterJump (s : State) (rd : RegIdx) (target : Word) : State :=
  { s.writeReg rd (s.pc + 4#32) with
    pc := target
    counters := { s.counters with
      instCount := s.counters.instCount + 1
      controlHazardCount := s.counters.controlHazardCount + 1 } }

/-! ## The invariant of the pipeline -/

/-- A branch record carries both targets; no other record is predicted taken (R42, R219, R324). -/
def DRec.ok (d : DRec) : Bool :=
  match d.kind with
  | .poison _ => d.predictedBranch == false && d.dest == 0#5
  | .real k =>
    if k.isBranch then d.predictedPC == d.pc + d.imm && d.anotherPC == (if d.predictedBranch then d.pc + 4#32 else d.pc + d.imm)
    else d.predictedBranch == false

/-- An Execute record asks for at most one access, of 1, 2 or 4 bytes, and a load or an input call writes a register (R43,
R201, R202, R241). -/
def ERec.ok (e : ERec) : Bool :=
  (if e.readMem || e.writeMem then e.memLen == 1#3 || e.memLen == 2#3 || e.memLen == 4#3 else e.memLen == 0#3)
    && !(e.readMem && e.writeMem) && (!e.loadClass || e.writeReg) && (!e.writeMem || !e.writeReg)

/-- The FSM's window (R370): while a restore is armed the record to replay is held with the address after it, `D` is a
bubble, and with two or more cycles to go `F` is one too; while the run goes on, the forward-fetcher flag stands
exactly when three cycles are to go. -/
def State.windowOk (s : State) : Bool :=
  (s.fsm.countdown == 0#2 ||
    ((match s.fsm.saved with
      | some g => s.fsm.restorePC == g.pc + 4#32
      | none => false) && s.d.content.isNone))
  && (!(decide (2 ≤ s.fsm.countdown.toNat)) || s.f.content.isNone)
  && (s.status != .running || s.fsm.forwardFetcher == (s.fsm.countdown == 3#2))

/-- The invariant: the memory is canonical, `x0` is zero (R31), no register is marked stalled (R46), the fetch address is the
one after the fetched word, and the records and the FSM are as the rules make them. -/
def State.inv (s : State) : Bool :=
  s.mem.wf && s.x[0] == 0#32
    && s.f.stall == 0#2 && s.d.stall == 0#2 && s.e.stall == 0#2 && s.m.stall == 0#2
    && s.f.content.all (fun f => s.pc == f.pc + 4#32)
    && s.d.content.all DRec.ok && s.e.content.all ERec.ok
    && s.windowOk

/-! ## The sequential machine that a pipeline state stands for (R346) -/

/-- What the program can see: registers, the address of the next instruction, memory, the console, and the input not yet
consumed. -/
structure Arch where
  x : Vector Word 32
  pc : Word
  mem : Memory
  console : Console
  chars : List Byte
  ints : List Word
deriving DecidableEq, Repr

/-- The program's view of a state with nothing in flight. -/
def State.arch (s : State) : Arch where
  x := s.x
  pc := s.pc
  mem := s.mem
  console := s.console
  chars := s.env.chars
  ints := s.env.ints

/-- The address of the youngest instruction that has not yet been decoded for good: the one held for replay, else the one in
`F`, else the one about to be fetched. -/
def State.frontPC (s : State) : Word :=
  if s.fsm.countdown = 0#2 then (match s.f.content with
    | some f => f.pc
    | none => s.pc)
  else (match s.fsm.saved with
    | some g => g.pc
    | none => s.pc)

/-- An Execute record run to its end by itself; none if it ends the run or waits. -/
def State.finish (s : State) (e : ERec) : Option State :=
  match s.memoryAccess e with
  | .done m fx => some ((s.applyEffects fx).writeBack m)
  | _ => none

/-- The state once the instructions in `M` and `E` have run to their ends. -/
def State.drainOlder (s : State) : Option State :=
  match s.e.content with
  | none => some s.writeBackStage
  | some e => s.writeBackStage.finish e

/-- What the program sees once every instruction that is past Decode has run to its end, oldest first, and nothing younger
has begun; none if one of them ends the run or waits for input. -/
def State.drain (s : State) : Option Arch :=
  s.drainOlder.bind fun t =>
    match s.d.content with
    | none => some { t.arch with pc := s.frontPC }
    | some d =>
      let o := executeRecord s.params d
      match o.en with
      | none => none
      | some e => (t.finish e).map fun u => { u.arch with pc := o.ctrl.getD s.frontPC }

/-- The record in `D` holds the operand values that its sources have once the older instructions have run to their ends: what
forwarding and stalls are for (R440). -/
def State.coherent (s : State) : Prop :=
  ∀ t d k, s.drainOlder = some t → s.d.content = some d → d.kind = .real k →
    (k.readsRs1 = true → d.op1 = t.readReg d.rs1) ∧ (k.readsRs2 = true → d.op2 = t.readReg d.rs2) ∧
      (k.readsRs3 = true → d.op3 = t.readReg d.rs3)

end Sys2Proof.Machine
end

