-- ==== Sys2Proof/Certificates/Slice0/Obligations.lean ====
section
/-! DEFINITION. The statements about the machine. Each docstring names the rule of the spec that it formalises. -/

open Sys2Proof Sys2Proof.Machine

/-! ## Encoding -/

/-- Every well-formed instruction decodes from its own word, with every operand (R110 to R130). -/
def Obligations.EncodeThenDecode : Prop :=
  ∀ (m : MSet) (i : Instr), i.wellFormed m = true → decode m (encode i) = .ok i

/-- Every word that decodes is the word of the instruction it decodes to, and that instruction is well-formed: the instruction
holds every field of the word, the fused kinds' `rm` too, to which R128 gives no effect. -/
def Obligations.DecodeThenEncode : Prop :=
  ∀ (m : MSet) (w : Word) (i : Instr), decode m w = .ok i → encode i = w ∧ i.wellFormed m = true

/-- Decoding is exact matching against the rows of R130: the kind decoded is the one whose row matches, every existing kind
whose row matches is decoded, and a word that fails does so for the reason of R121. -/
def Obligations.DecodeMatchesOneRow : Prop :=
  (∀ (m : MSet) (w : Word) (i : Instr), decode m w = .ok i →
      w &&& i.kind.rowMask = i.kind.rowMatch ∧ i.kind.exists m = true ∧
        ∀ k : Kind, k.exists m = true → w &&& k.rowMask = k.rowMatch → k = i.kind) ∧
  (∀ (m : MSet) (w : Word) (k : Kind), k.exists m = true → w &&& k.rowMask = k.rowMatch →
      ∃ i, decode m w = .ok i ∧ i.kind = k) ∧
  (∀ (m : MSet) (w : Word), (∀ k : Kind, k.exists m = true → w &&& k.rowMask ≠ k.rowMatch) →
      decode m w = .error (if w.extractLsb' 0 2 = 0b11#2 then .unrecognized else .compressed))

/-- The decoder's output fields are the word's fields where the kind has them, and 0 where it has none; ECALL's are 10, 17
and 10 (R131). -/
def Obligations.DecodedFields : Prop :=
  ∀ (m : MSet) (w : Word) (i : Instr), decode m w = .ok i →
    i.rs1 = (if i.kind = .ecall then 10#5 else if i.kind.readsRs1 then w.extractLsb' 15 5 else 0#5) ∧
    i.rs2 = (if i.kind = .ecall then 17#5 else if i.kind.readsRs2 then w.extractLsb' 20 5 else 0#5) ∧
    i.rs3 = (if i.kind.readsRs3 then w.extractLsb' 27 5 else 0#5) ∧
    i.dest = (if i.kind = .ecall then 10#5
      else if i.kind.isBranch || i.kind.isStore then 0#5 else w.extractLsb' 7 5)

/-- The immediates, bit by bit from the word: I (R112), S (R113), B (R114), U (R115), J (R116) and the shift amount
(R117). -/
def Obligations.DecodedImmediates : Prop :=
  ∀ (m : MSet) (w : Word) (i : Instr), decode m w = .ok i →
    ((i.kind.isLoad || i.kind == .jalr || i.kind == .addi || i.kind == .slti || i.kind == .sltiu || i.kind == .xori
        || i.kind == .ori || i.kind == .andi) = true → i.imm = (w.extractLsb' 20 12).signExtend 32) ∧
    (i.kind.isStore = true → i.imm = (w.extractLsb' 25 7 ++ w.extractLsb' 7 5).signExtend 32) ∧
    (i.kind.isBranch = true →
      i.imm = (w.extractLsb' 31 1 ++ w.extractLsb' 7 1 ++ w.extractLsb' 25 6 ++ w.extractLsb' 8 4 ++ 0#1).signExtend 32) ∧
    ((i.kind == .lui || i.kind == .auipc) = true → i.imm = w.extractLsb' 12 20 ++ 0#12) ∧
    (i.kind = .jal →
      i.imm = (w.extractLsb' 31 1 ++ w.extractLsb' 12 8 ++ w.extractLsb' 20 1 ++ w.extractLsb' 21 10 ++ 0#1).signExtend 32) ∧
    ((i.kind == .slli || i.kind == .srli || i.kind == .srai) = true → i.imm = (w.extractLsb' 20 5).setWidth 32)

/-- A word of several families, written out bit by bit from the encodings of R111 and R130, decodes to its instruction. -/
def Obligations.DecodeSampleWords : Prop :=
  decode .core4 0b00000000010100101000001100010011#32 = .ok (.addi 6#5 5#5 5#12) ∧
  decode .core4 0b11111110011100110001110011100011#32 = .ok (.bne 6#5 7#5 0xFFC#12) ∧
  decode .core4 0b00000000000100010010001000100011#32 = .ok (.sw 2#5 1#5 4#12) ∧
  decode .core4 0b00000000100000000000000011101111#32 = .ok (.jal 1#5 4#20) ∧
  decode .core4 0b00111000101001010111010001000011#32 = .ok (.fmadd 8#5 10#5 10#5 7#5 0b111#3) ∧
  decode .core4 0b00000010011000101000001110110011#32 = .ok (.mul 7#5 5#5 6#5) ∧
  decode .core4 0b00000000000000000000000001110011#32 = .ok .ecall

/-! ## Memory -/

/-- Byte order (R83): a store of `n` bytes puts the value's bytes at rising addresses, least significant first, and leaves
every other byte; a read assembles them the same way, and so does an instruction fetch. -/
def Obligations.MemoryLittleEndian : Prop :=
  (∀ (m : Memory) (a n : Nat) (v : Word), m.wf = true → a + n ≤ 2 ^ 32 → n ≤ 4 → ∀ b : Nat,
      (m.writeLE a n v).read b = (if a ≤ b ∧ b < a + n then v.extractLsb' (8 * (b - a)) 8 else m.read b)) ∧
  (∀ (m : Memory) (a : Nat), m.readLE a 1 = 0#24 ++ m.read a ∧ m.readLE a 2 = 0#16 ++ m.read (a + 1) ++ m.read a ∧
      m.readLE a 4 = m.read (a + 3) ++ m.read (a + 2) ++ m.read (a + 1) ++ m.read a) ∧
  (∀ s : State, accessOk s.params s.pc 4 = true → s.fetchStage.fn.inst =
      s.mem.read (s.pc.toNat + 3) ++ s.mem.read (s.pc.toNat + 2) ++ s.mem.read (s.pc.toNat + 1) ++ s.mem.read s.pc.toNat)

/-! ## What the instructions do -/

/-- The register-immediate kinds (R160 to R168) complete in every state: the destination takes the value of the rule,
`pc` moves on, one instruction is counted, and nothing else changes. How `exec` counts is the model's choice
(notes/assumptions/5.md). -/
def Obligations.OpImmResults : Prop :=
  ∀ (s : State) (rd rs1 : RegIdx) (imm : BitVec 12) (sh : BitVec 5),
    exec (.addi rd rs1 imm) s = .next (s.afterWrite rd (s.readReg rs1 + imm.signExtend 32) 0) ∧
    exec (.slti rd rs1 imm) s =
      .next (s.afterWrite rd (if (s.readReg rs1).toInt < imm.toInt then 1#32 else 0#32) 0) ∧
    exec (.sltiu rd rs1 imm) s =
      .next (s.afterWrite rd (if (s.readReg rs1).toNat < (imm.signExtend 32).toNat then 1#32 else 0#32) 0) ∧
    exec (.xori rd rs1 imm) s = .next (s.afterWrite rd (s.readReg rs1 ^^^ imm.signExtend 32) 0) ∧
    exec (.ori rd rs1 imm) s = .next (s.afterWrite rd (s.readReg rs1 ||| imm.signExtend 32) 0) ∧
    exec (.andi rd rs1 imm) s = .next (s.afterWrite rd (s.readReg rs1 &&& imm.signExtend 32) 0) ∧
    exec (.slli rd rs1 sh) s = .next (s.afterWrite rd (s.readReg rs1 <<< sh.toNat) 0) ∧
    exec (.srli rd rs1 sh) s = .next (s.afterWrite rd (s.readReg rs1 >>> sh.toNat) 0) ∧
    exec (.srai rd rs1 sh) s = .next (s.afterWrite rd ((s.readReg rs1).sshiftRight sh.toNat) 0)

/-- The register-register kinds (R170 to R179) complete in every state, as `OpImmResults` says of theirs. How `exec`
counts is the model's choice (notes/assumptions/5.md). -/
def Obligations.OpResults : Prop :=
  ∀ (s : State) (rd rs1 rs2 : RegIdx),
    let a := s.readReg rs1
    let b := s.readReg rs2
    exec (.add rd rs1 rs2) s = .next (s.afterWrite rd (a + b) 0) ∧
    exec (.sub rd rs1 rs2) s = .next (s.afterWrite rd (a - b) 0) ∧
    exec (.sll rd rs1 rs2) s = .next (s.afterWrite rd (a <<< (b.toNat % 32)) 0) ∧
    exec (.slt rd rs1 rs2) s = .next (s.afterWrite rd (if a.toInt < b.toInt then 1#32 else 0#32) 0) ∧
    exec (.sltu rd rs1 rs2) s = .next (s.afterWrite rd (if a.toNat < b.toNat then 1#32 else 0#32) 0) ∧
    exec (.xor rd rs1 rs2) s = .next (s.afterWrite rd (a ^^^ b) 0) ∧
    exec (.srl rd rs1 rs2) s = .next (s.afterWrite rd (a >>> (b.toNat % 32)) 0) ∧
    exec (.sra rd rs1 rs2) s = .next (s.afterWrite rd (a.sshiftRight (b.toNat % 32)) 0) ∧
    exec (.or rd rs1 rs2) s = .next (s.afterWrite rd (a ||| b) 0) ∧
    exec (.and rd rs1 rs2) s = .next (s.afterWrite rd (a &&& b) 0)

/-- LUI and AUIPC (R230, R231) complete in every state. How `exec` counts is the model's choice
(notes/assumptions/5.md). -/
def Obligations.UpperImmediateResults : Prop :=
  ∀ (s : State) (rd : RegIdx) (imm : BitVec 20),
    exec (.lui rd imm) s = .next (s.afterWrite rd (imm ++ 0#12) 0) ∧
    exec (.auipc rd imm) s = .next (s.afterWrite rd (s.pc + (imm ++ 0#12)) 0)

/-- The multiplies (R270, R271, R274, R275) complete in every state; each adds 3 to the cycle count (R279). The high
words are those of the exact product, sign- or zero-extended factors at 64 bits. How `exec` counts is the model's
choice (notes/assumptions/5.md). -/
def Obligations.MultiplyResults : Prop :=
  ∀ (s : State) (rd rs1 rs2 : RegIdx),
    let a := s.readReg rs1
    let b := s.readReg rs2
    exec (.mul rd rs1 rs2) s = .next (s.afterWrite rd ((a.signExtend 64 * b.signExtend 64).extractLsb' 0 32) 3) ∧
    exec (.mulh rd rs1 rs2) s = .next (s.afterWrite rd ((a.signExtend 64 * b.signExtend 64).extractLsb' 32 32) 3) ∧
    exec (.mulhsu rd rs1 rs2) s = .next (s.afterWrite rd ((a.signExtend 64 * b.setWidth 64).extractLsb' 32 32) 3) ∧
    exec (.mulhu rd rs1 rs2) s = .next (s.afterWrite rd ((a.setWidth 64 * b.setWidth 64).extractLsb' 32 32) 3)

/-- Outside the corners of R280, the divisions complete with the results of R281: signed division rounds toward zero,
the remainder has the sign of the dividend and is smaller than the divisor, and unsigned division rounds down. How
`exec` counts is the model's choice (notes/assumptions/5.md). -/
def Obligations.DivideResults : Prop :=
  ∀ (s : State) (rd rs1 rs2 : RegIdx),
    let a := s.readReg rs1
    let b := s.readReg rs2
    (b ≠ 0#32 → ¬(a = 0x80000000#32 ∧ b = 0xFFFFFFFF#32) →
      ∃ q r : Word, exec (.div rd rs1 rs2) s = .next (s.afterWrite rd q 0) ∧
        exec (.rem rd rs1 rs2) s = .next (s.afterWrite rd r 0) ∧
        q.toInt = a.toInt.tdiv b.toInt ∧ a.toInt = b.toInt * q.toInt + r.toInt ∧
        r.toInt.natAbs < b.toInt.natAbs ∧ 0 ≤ r.toInt * a.toInt) ∧
    (b ≠ 0#32 →
      ∃ q r : Word, exec (.divu rd rs1 rs2) s = .next (s.afterWrite rd q 0) ∧
        exec (.remu rd rs1 rs2) s = .next (s.afterWrite rd r 0) ∧
        q.toNat = a.toNat / b.toNat ∧ r = a - b * q ∧ r.toNat = a.toNat % b.toNat)

/-- The corners of R280: under `DIV_CORNER = Fault` the instruction raises DivideFault and does nothing else; under
`DIV_CORNER = RiscV` it completes with the result of the table. How `exec` counts, and that a fatal event changes the
status only, is the model's choice (notes/assumptions/5.md). -/
def Obligations.DivideCorners : Prop :=
  ∀ (s : State) (rd rs1 rs2 : RegIdx),
    let a := s.readReg rs1
    let b := s.readReg rs2
    (s.params.divCorner = .fault →
      (b = 0#32 ∨ (a = 0x80000000#32 ∧ b = 0xFFFFFFFF#32) →
        exec (.div rd rs1 rs2) s = .next { s with status := .fatal (.divideFault .div a b) } ∧
        exec (.rem rd rs1 rs2) s = .next { s with status := .fatal (.divideFault .rem a b) }) ∧
      (b = 0#32 →
        exec (.divu rd rs1 rs2) s = .next { s with status := .fatal (.divideFault .divu a b) } ∧
        exec (.remu rd rs1 rs2) s = .next { s with status := .fatal (.divideFault .remu a b) })) ∧
    (s.params.divCorner = .riscV →
      (b = 0#32 →
        exec (.div rd rs1 rs2) s = .next (s.afterWrite rd 0xFFFFFFFF#32 0) ∧
        exec (.rem rd rs1 rs2) s = .next (s.afterWrite rd a 0) ∧
        exec (.divu rd rs1 rs2) s = .next (s.afterWrite rd 0xFFFFFFFF#32 0) ∧
        exec (.remu rd rs1 rs2) s = .next (s.afterWrite rd a 0)) ∧
      (a = 0x80000000#32 ∧ b = 0xFFFFFFFF#32 →
        exec (.div rd rs1 rs2) s = .next (s.afterWrite rd 0x80000000#32 0) ∧
        exec (.rem rd rs1 rs2) s = .next (s.afterWrite rd 0#32 0)))

/-- The fused kinds (R260 to R263) complete in every state, modulo 2^32, whatever `rm` is (R266); each adds 3 to the
cycle count (R265). How `exec` counts is the model's choice (notes/assumptions/5.md). -/
def Obligations.FusedResults : Prop :=
  ∀ (s : State) (rd rs1 rs2 rs3 : RegIdx) (rm : BitVec 3),
    let a := (s.readReg rs1).toInt
    let b := (s.readReg rs2).toInt
    let c := (s.readReg rs3).toInt
    exec (.fmadd rd rs1 rs2 rs3 rm) s = .next (s.afterWrite rd (BitVec.ofInt 32 (a * b + c)) 3) ∧
    exec (.fmsub rd rs1 rs2 rs3 rm) s = .next (s.afterWrite rd (BitVec.ofInt 32 (a * b - c)) 3) ∧
    exec (.fnmsub rd rs1 rs2 rs3 rm) s = .next (s.afterWrite rd (BitVec.ofInt 32 (-(a * b) + c)) 3) ∧
    exec (.fnmadd rd rs1 rs2 rs3 rm) s = .next (s.afterWrite rd (BitVec.ofInt 32 (-(a * b) - c)) 3)

/-- The loads (R190 to R194) complete when their access is performed (in range, and aligned or `MISALIGNED = ByteWise`):
the address is the base plus the immediate (R200), the bytes are little-endian (R83), and the value is extended as
the kind says. How the latency is drawn and how `exec` counts are the model's choices (notes/assumptions/5.md and
6.md). -/
def Obligations.LoadResults : Prop :=
  ∀ (s : State) (rd rs1 : RegIdx) (imm : BitVec 12),
    let ea := s.readReg rs1 + imm.signExtend 32
    let byte := fun k => s.mem.read (ea.toNat + k)
    (accessOk s.params ea 1 = true →
      exec (.lb rd rs1 imm) s = .next ((s.afterWrite rd ((byte 0).signExtend 32) 0).afterLatency 1) ∧
      exec (.lbu rd rs1 imm) s = .next ((s.afterWrite rd ((byte 0).setWidth 32) 0).afterLatency 1)) ∧
    (accessOk s.params ea 2 = true →
      exec (.lh rd rs1 imm) s = .next ((s.afterWrite rd ((byte 1 ++ byte 0).signExtend 32) 0).afterLatency 1) ∧
      exec (.lhu rd rs1 imm) s = .next ((s.afterWrite rd ((byte 1 ++ byte 0).setWidth 32) 0).afterLatency 1)) ∧
    (accessOk s.params ea 4 = true →
      exec (.lw rd rs1 imm) s = .next ((s.afterWrite rd (byte 3 ++ byte 2 ++ byte 1 ++ byte 0) 0).afterLatency 1))

/-- The stores (R196 to R198) complete when their access is performed: the low bytes of `x[rs2]` stand at the address,
least significant first, every other byte of memory is as before, no register is written (R202), and nothing else
changes but `pc`, the counters and the latency draw. How the latency is drawn and how `exec` counts are the model's
choices (notes/assumptions/5.md and 6.md). -/
def Obligations.StoreResults : Prop :=
  ∀ (s : State) (rs1 rs2 : RegIdx) (imm : BitVec 12), s.mem.wf = true →
    let ea := s.readReg rs1 + imm.signExtend 32
    let v := s.readReg rs2
    (accessOk s.params ea 1 = true → ∃ m', exec (.sb rs1 rs2 imm) s = .next (({ s with mem := m' }.advance 0).afterLatency 1) ∧
      m'.wf = true ∧ ∀ a, m'.read a = if a = ea.toNat then v.extractLsb' 0 8 else s.mem.read a) ∧
    (accessOk s.params ea 2 = true → ∃ m', exec (.sh rs1 rs2 imm) s = .next (({ s with mem := m' }.advance 0).afterLatency 1) ∧
      m'.wf = true ∧ ∀ a, m'.read a = if a = ea.toNat then v.extractLsb' 0 8
        else if a = ea.toNat + 1 then v.extractLsb' 8 8 else s.mem.read a) ∧
    (accessOk s.params ea 4 = true → ∃ m', exec (.sw rs1 rs2 imm) s = .next (({ s with mem := m' }.advance 0).afterLatency 1) ∧
      m'.wf = true ∧ ∀ a, m'.read a = if a = ea.toNat then v.extractLsb' 0 8
        else if a = ea.toNat + 1 then v.extractLsb' 8 8
        else if a = ea.toNat + 2 then v.extractLsb' 16 8
        else if a = ea.toNat + 3 then v.extractLsb' 24 8 else s.mem.read a)

/-- A load or store whose access is out of range or misaligned raises MemoryFault with the address, the width and the
access, and does nothing else: a faulting load writes no register and a faulting store writes no byte (R203). That a
fatal event changes the status only, and no counter of `exec`, is the model's choice (notes/assumptions/5.md). -/
def Obligations.AccessFaults : Prop :=
  ∀ (s : State) (rd rs1 rs2 : RegIdx) (imm : BitVec 12),
    let ea := s.readReg rs1 + imm.signExtend 32
    (accessOk s.params ea 1 = false →
      exec (.lb rd rs1 imm) s = .next { s with status := .fatal (.memoryFault ea 1 .load) } ∧
      exec (.lbu rd rs1 imm) s = .next { s with status := .fatal (.memoryFault ea 1 .load) } ∧
      exec (.sb rs1 rs2 imm) s = .next { s with status := .fatal (.memoryFault ea 1 .store) }) ∧
    (accessOk s.params ea 2 = false →
      exec (.lh rd rs1 imm) s = .next { s with status := .fatal (.memoryFault ea 2 .load) } ∧
      exec (.lhu rd rs1 imm) s = .next { s with status := .fatal (.memoryFault ea 2 .load) } ∧
      exec (.sh rs1 rs2 imm) s = .next { s with status := .fatal (.memoryFault ea 2 .store) }) ∧
    (accessOk s.params ea 4 = false →
      exec (.lw rd rs1 imm) s = .next { s with status := .fatal (.memoryFault ea 4 .load) } ∧
      exec (.sw rs1 rs2 imm) s = .next { s with status := .fatal (.memoryFault ea 4 .store) })

/-- When an access is performed (R82, R85): every byte of it is an existing address, it does not pass the top of the
address space, and its address is a multiple of its width unless `MISALIGNED = ByteWise`. That the existing
addresses are a list of ranges is the model's choice (notes/assumptions/9.md). -/
def Obligations.AccessPerformedWhen : Prop :=
  ∀ (p : Params) (addr : Word) (n : Nat), accessOk p addr n = true ↔
    addr.toNat + n ≤ 2 ^ 32 ∧
    (∀ k < n, ∃ r ∈ p.ranges, r.base ≤ addr.toNat + k ∧ addr.toNat + k < r.base + r.size) ∧
    (p.misaligned = .byteWise ∨ addr.toNat % n = 0)

/-- The branches (R210 to R215) complete in every state: the next instruction is at `pc + immB` exactly when the
condition holds, whatever the predictor answered (R221); no register and no byte of memory changes, and the
predictor and the branch counters see what R219 and R220 say. How `exec` counts and logs the predictor's calls is
the model's choice (notes/assumptions/5.md and 10.md). -/
def Obligations.BranchResults : Prop :=
  ∀ (s : State) (rs1 rs2 : RegIdx) (off : BitVec 12),
    let a := s.readReg rs1
    let b := s.readReg rs2
    let o := (off ++ 0#1).signExtend 32
    exec (.beq rs1 rs2 off) s = .next (s.afterBranch .beq rs1 rs2 o (decide (a = b))) ∧
    exec (.bne rs1 rs2 off) s = .next (s.afterBranch .bne rs1 rs2 o (decide (a ≠ b))) ∧
    exec (.blt rs1 rs2 off) s = .next (s.afterBranch .blt rs1 rs2 o (decide (a.toInt < b.toInt))) ∧
    exec (.bge rs1 rs2 off) s = .next (s.afterBranch .bge rs1 rs2 o (decide (b.toInt ≤ a.toInt))) ∧
    exec (.bltu rs1 rs2 off) s = .next (s.afterBranch .bltu rs1 rs2 o (decide (a.toNat < b.toNat))) ∧
    exec (.bgeu rs1 rs2 off) s = .next (s.afterBranch .bgeu rs1 rs2 o (decide (b.toNat ≤ a.toNat)))

/-- JAL (R216) and JALR (R217) complete in every state: the link is `pc + 4`, JALR's target has bit 0 cleared and uses
the old base, and one control hazard is counted (R223). How `exec` counts is the model's choice
(notes/assumptions/5.md). -/
def Obligations.JumpResults : Prop :=
  ∀ (s : State) (rd rs1 : RegIdx) (off : BitVec 20) (imm : BitVec 12),
    exec (.jal rd off) s = .next (s.afterJump rd (s.pc + (off ++ 0#1).signExtend 32)) ∧
    exec (.jalr rd rs1 imm) s =
      .next (s.afterJump rd ((s.readReg rs1 + imm.signExtend 32) &&& 0xFFFFFFFE#32))

/-! ## The system call -/

/-- Calls 1 and 2 complete in every state: the low byte of `x10`, or the whole of it as a signed integer, is emitted and
no register is written (R244, R245). How `exec` counts is the model's choice (notes/assumptions/5.md). -/
def Obligations.EcallPrints : Prop :=
  ∀ s : State,
    (s.readReg 17#5 = 1#32 →
      exec .ecall s = .next ((s.emit [OutEvent.char ((s.readReg 10#5).extractLsb' 0 8)]).advance 0)) ∧
    (s.readReg 17#5 = 2#32 → exec .ecall s = .next ((s.emit [OutEvent.int (s.readReg 10#5).toInt]).advance 0))

/-- Call 0 completes on a string of nonzero bytes that ends in a zero byte, all of whose bytes can be read: its
characters are emitted in order, each byte read has its latency, and no register is written (R243). How the latency
is drawn and how `exec` counts are the model's choices (notes/assumptions/5.md and 6.md). -/
def Obligations.EcallPrintString : Prop :=
  ∀ (s : State) (n : Nat), s.readReg 17#5 = 0#32 → n < 2 ^ 32 →
    let p := fun k : Nat => s.readReg 10#5 + BitVec.ofNat 32 k
    (∀ k ≤ n, accessOk s.params (p k) 1 = true) → (∀ k < n, s.mem.read (p k).toNat ≠ 0#8) →
    s.mem.read (p n).toNat = 0#8 →
    exec .ecall s = .next (((s.emit ((List.range n).map (fun k => OutEvent.char (s.mem.read (p k).toNat)))).advance 0).afterLatency
      (n + 1))

/-- Call 0 on a string one of whose bytes cannot be read raises MemoryFault, and the characters before that byte stay
emitted; on a string that runs through the whole address space with no zero byte and no fault it never ends, and the
machine has no next state (R243). That the fault changes the status and the console only, and no counter of `exec`, is
the model's choice (notes/assumptions/5.md), and so is that the endless call is a fault of the model
(notes/assumptions/7.md). -/
def Obligations.EcallStringStops : Prop :=
  (∀ (s : State) (n : Nat), s.readReg 17#5 = 0#32 → n < 2 ^ 32 →
    let p := fun k : Nat => s.readReg 10#5 + BitVec.ofNat 32 k
    (∀ k < n, accessOk s.params (p k) 1 = true ∧ s.mem.read (p k).toNat ≠ 0#8) → accessOk s.params (p n) 1 = false →
    exec .ecall s = .next ((s.emit ((List.range n).map (fun k => OutEvent.char (s.mem.read (p k).toNat)))).raise
      (.memoryFault (p n) 1 .stringRead))) ∧
  (∀ s : State, s.readReg 17#5 = 0#32 →
    (∀ a : Word, accessOk s.params a 1 = true ∧ s.mem.read a.toNat ≠ 0#8) → exec .ecall s = .fault .stringNeverEnds)

/-- Calls 3 and 93 end the run with exit status 0, count as one instruction, and write no register but the forced `x0`;
if the stack pointer is below the floor, StackOverflow is raised instead (R246, R333). That `exec` runs the guard of
the exit is the model's choice (notes/assumptions/5.md). -/
def Obligations.EcallExits : Prop :=
  ∀ s : State, s.readReg 17#5 = 3#32 ∨ s.readReg 17#5 = 93#32 → ∃ t, exec .ecall s = .next t ∧
    t = { s with
      x := s.x.set 0 0#32
      counters := { s.counters with instCount := s.counters.instCount + 1 }
      status := if (s.readReg 2#5).toNat < (s.params.stackBase - s.params.stackMaxSize).toNat
        then .fatal (.stackOverflow (s.readReg 2#5)) else .exited } ∧
    (s.params.stackFloor.toNat ≤ (s.readReg 2#5).toNat → t.exitStatus = some 0)

/-- Calls 4 and 5 complete once the host has supplied the input: it is consumed and `x10` takes it, a character
zero-extended (R247, R248). That the input stands in queues is the model's choice (notes/assumptions/7.md), and so is
how `exec` counts (notes/assumptions/5.md). -/
def Obligations.EcallReads : Prop :=
  ∀ s : State,
    (∀ c rest, s.readReg 17#5 = 4#32 → s.env.chars = c :: rest →
      exec .ecall s = .next (({ s with
        env := { s.env with chars := rest }
        console := { s.console with consumed := s.console.consumed ++ [InEvent.char c] } }).afterWrite 10#5 (c.setWidth 32) 0)) ∧
    (∀ n rest, s.readReg 17#5 = 5#32 → s.env.ints = n :: rest →
      exec .ecall s = .next (({ s with
        env := { s.env with ints := rest }
        console := { s.console with consumed := s.console.consumed ++ [InEvent.int n] } }).afterWrite 10#5 n 0))

/-- Calls 4 and 5 without input have no next state (R250), and any other call number raises UnknownSyscall and does nothing
else (R249). That waiting is a fault of the model is its choice (notes/assumptions/7.md), and so is that a fatal event
changes the status only, and no counter of `exec` (notes/assumptions/5.md). -/
def Obligations.EcallWaitsAndUnknown : Prop :=
  ∀ s : State,
    (s.readReg 17#5 = 4#32 → s.env.chars = [] → exec .ecall s = .fault .awaitingConsoleInput) ∧
    (s.readReg 17#5 = 5#32 → s.env.ints = [] → exec .ecall s = .fault .awaitingConsoleInput) ∧
    ((∀ n ∈ [0, 1, 2, 3, 4, 5, 93], s.readReg 17#5 ≠ BitVec.ofNat 32 n) →
      exec .ecall s = .next { s with status := .fatal (.unknownSyscall (s.readReg 17#5)) })

/-! ## Frames of all instructions -/

/-- No instruction changes a register other than its destination, and after each of them `x0` reads as zero (R31, R34). -/
def Obligations.FrameRegisters : Prop :=
  ∀ (i : Instr) (s t : State), exec i s = .next t →
    (∀ r : RegIdx, r ≠ i.dest → t.readReg r = s.readReg r) ∧ t.readReg 0#5 = 0#32

/-- No instruction but a store changes a byte of memory, and a store changes none outside the bytes at its address. The
address is the base register plus the immediate; the bytes are as many as the kind's width (R202). -/
def Obligations.FrameMemory : Prop :=
  ∀ (i : Instr) (s t : State), s.mem.wf = true → exec i s = .next t → ∀ a : Nat,
    (i.kind.isStore = true →
      (a < (s.readReg i.rs1 + i.imm).toNat ∨
        (s.readReg i.rs1 + i.imm).toNat + (if i.kind = .sb then 1 else if i.kind = .sh then 2 else 4) ≤ a) →
      t.mem.read a = s.mem.read a) ∧
    (i.kind.isStore = false → t.mem.read a = s.mem.read a)

/-- No instruction run by itself changes a pipeline register, the stall FSM or a parameter; none but ECALL touches the
console or the waiting input; none but a branch calls the predictor or moves the branch counters. That `exec` leaves
the pipeline alone is the model's choice (notes/assumptions/5.md). -/
def Obligations.FrameRest : Prop :=
  ∀ (i : Instr) (s t : State), exec i s = .next t →
    (t.f = s.f ∧ t.d = s.d ∧ t.e = s.e ∧ t.m = s.m ∧ t.fsm = s.fsm ∧ t.params = s.params) ∧
    (i.kind ≠ .ecall → t.console = s.console ∧ t.env.chars = s.env.chars ∧ t.env.ints = s.env.ints) ∧
    (i.kind.isBranch = false → t.predictorLog = s.predictorLog ∧ t.env.answers = s.env.answers ∧
      t.env.answerDraws = s.env.answerDraws ∧ t.counters.branchHit = s.counters.branchHit ∧
      t.counters.branchMiss = s.counters.branchMiss) ∧
    (t.counters.dataHazardCount = s.counters.dataHazardCount ∧
      t.counters.memoryHazardCount = s.counters.memoryHazardCount)

/-! ## The cycle -/

/-- Once the run has ended no cycle takes place (R51, R408). That this is a fault of the model is its choice
(notes/assumptions/8.md). -/
def Obligations.EndedRunHasNoStep : Prop :=
  ∀ s : State, (step s = .fault .runEnded ↔ s.status ≠ .running)

/-- The stack guard of step 2: when `x2` is below the floor the step ends with StackOverflow, and no register, memory, console
or counter changes (R321). -/
def Obligations.StackGuardEndsRun : Prop :=
  ∀ s : State, s.status = .running →
    (s.readReg 2#5).toNat < (s.params.stackBase - s.params.stackMaxSize).toNat →
    ∃ t, step s = .next t ∧ t.status = .fatal (.stackOverflow (s.readReg 2#5)) ∧
      (∀ r, t.readReg r = s.readReg r) ∧ t.mem = s.mem ∧ t.console = s.console ∧ t.counters = s.counters ∧ t.env = s.env

/-- Fetch (R322, R323): a completed cycle leaves a bubble in `F` exactly when the forward-fetcher flag (R373), a claim of 2 or 3
(R371), a control hazard (R337) or the redirect of a branch predicted taken (R338) makes it one; otherwise `F` holds the
word that memory held at the fetch address at the start of the cycle, or, if the read failed, the fault and no
instruction. -/
def Obligations.FetchLatchesWord : Prop :=
  (∀ (s t : State) (f : FRec), s.Cycles t → s.f.stall = 0#2 → t.f.content = some f →
    f.pc = s.restoreOrTick.pc ∧
    (accessOk s.params f.pc 4 = true → f.poison = none ∧
      f.inst = s.mem.read (f.pc.toNat + 3) ++ s.mem.read (f.pc.toNat + 2) ++ s.mem.read (f.pc.toNat + 1) ++ s.mem.read f.pc.toNat) ∧
    (accessOk s.params f.pc 4 = false → f.poison = some (.memoryFault f.pc 4 .fetch) ∧ f.inst = 0#32)) ∧
  (∀ (s t : State) (mn : Option MRec) (fx : Effects), s.Cycles t → s.f.stall = 0#2 → s.cycleStart.MemoryDone mn fx →
    let claim := (hazardLogic s.params s.cycleStart.decodeStage.dn s.cycleStart.executeStage.en mn s.m.content).claim
    (t.f.content = none ↔
      s.fsm.forwardFetcher = true ∨ (∃ c, claim = some c ∧ 2 ≤ c.length.toNat) ∨ s.cycleStart.executeStage.ctrl ≠ none ∨
        (claim = none ∧ s.decodedBranch.isSome = true ∧ s.env.drawAnswer.1 = true)))

/-- Decode (R324): a completed cycle leaves a bubble in `D` exactly when there was nothing to decode, or a claim (R371) or a
control hazard (R337) makes it one; otherwise the record latched into `D` is that of the fetched word: its address, kind, registers and immediate, and
for a branch the answer that the predictor gave and the targets (R219); a word that is no instruction, and a deferred
fetch fault, become a Poison record that carries the event. A cycle calls the predictor for the branch it decodes, with
the operands of the register file, also when the record is then discarded, and tells it the outcome of the branch in
Execute (R68, R220); a branch takes one answer and no other cycle takes any. That a Poison record keeps the word is the
model's choice (notes/assumptions/11.md), and so is that the calls stand in a log (notes/assumptions/10.md) and the
answers in a queue (notes/assumptions/6.md). -/
def Obligations.DecodeLatchesRecord : Prop :=
  (∀ (s t : State) (f : FRec) (d : DRec), s.Cycles t → s.d.stall = 0#2 → s.restoreOrTick.f.content = some f →
    t.d.content = some d →
    d.pc = f.pc ∧ d.inst = f.inst ∧
    (∀ e, f.poison = some e → d.kind = .poison e) ∧
    (f.poison = none → (∀ r, decode s.params.mSet f.inst = .error r → d.kind = .poison (.decodeError f.pc f.inst r)) ∧
      ∀ i, decode s.params.mSet f.inst = .ok i →
        d.kind = .real i.kind ∧ d.rs1 = i.rs1 ∧ d.rs2 = i.rs2 ∧ d.rs3 = i.rs3 ∧ d.dest = i.dest ∧ d.imm = i.imm ∧
        (i.kind.isBranch = false → d.predictedBranch = false) ∧
        (i.kind.isBranch = true → d.predictedBranch = s.env.drawAnswer.1 ∧ d.predictedPC = f.pc + i.imm ∧
          d.anotherPC = if d.predictedBranch then f.pc + 4#32 else f.pc + i.imm))) ∧
  (∀ (s t : State) (mn : Option MRec) (fx : Effects), s.Cycles t → s.d.stall = 0#2 → s.cycleStart.MemoryDone mn fx →
    (t.d.content = none ↔ s.restoreOrTick.f.content = none ∨
      (hazardLogic s.params s.cycleStart.decodeStage.dn s.cycleStart.executeStage.en mn s.m.content).claim ≠ none ∨
      s.cycleStart.executeStage.ctrl ≠ none)) ∧
  (∀ s t : State, s.Cycles t →
    t.predictorLog = s.predictorLog ++
      (match s.decodedBranch with
        | some (f, i) => [.predict f.pc i.kind (s.readReg i.rs1) (s.readReg i.rs2) i.imm s.env.drawAnswer.1]
        | none => []) ++
      (match s.resolved with
        | some (d, taken) => [.update d.pc taken]
        | none => []) ∧
    (s.decodedBranch.isSome = true →
      t.env.answers = s.env.drawAnswer.2.answers ∧ t.env.answerDraws = s.env.drawAnswer.2.answerDraws) ∧
    (s.decodedBranch = none → t.env.answers = s.env.answers ∧ t.env.answerDraws = s.env.answerDraws))

/-- Execute (R325): a completed cycle leaves in `E` the record of the instruction that was in `D`, as its kind's rule fills
it, and a bubble for a bubble; what the rules fill in, by kind: the address, operands and destination of `D`; a load or
store its effective address, width and extension (R201, R202), a jump its link (R216, R217), an ECALL a register write
only for calls 4 and 5 (R241), a branch nothing (R220). -/
def Obligations.ExecuteLatchesRecord : Prop :=
  ∀ s t : State, s.Cycles t → s.e.stall = 0#2 →
    (s.d.content = none → t.e.content = none) ∧
    (∀ d k, s.d.content = some d → d.kind = .real k →
      t.e.content = some ((executeKind k s.params d).record k d) ∧
      ∃ e, t.e.content = some e ∧ e.pc = d.pc ∧ e.kind = k ∧ e.op1 = d.op1 ∧ e.op2 = d.op2 ∧ e.dest = d.dest ∧
        e.readMem = k.isLoad ∧ e.writeMem = k.isStore ∧
        (e.loadClass = true ↔ k.isLoad = true ∨ (k = .ecall ∧ (d.op2 = 4#32 ∨ d.op2 = 5#32))) ∧
        ((k.isLoad || k.isStore) = true → e.out = d.op1 + d.imm) ∧
        ((k = .jal ∨ k = .jalr) → e.out = d.pc + 4#32) ∧
        ((k = .ecall ∨ k.isBranch = true) → e.out = 0#32) ∧
        e.memLen = (if k = .lb ∨ k = .lbu ∨ k = .sb then 1#3 else if k = .lh ∨ k = .lhu ∨ k = .sh then 2#3
          else if k = .lw ∨ k = .sw then 4#3 else 0#3) ∧
        (k.isLoad = true → k ≠ .lw → (e.signExt = true ↔ k = .lb ∨ k = .lh)) ∧
        (e.writeReg = false ↔ k.isBranch = true ∨ k.isStore = true ∨ (k = .ecall ∧ d.op2 ≠ 4#32 ∧ d.op2 ≠ 5#32)))

/-- WriteBack (R328, R341): a completed cycle writes the result of the instruction in `M` to its destination, if it writes one
other than `x0`, changes no other register, and counts the instruction. -/
def Obligations.WriteBackRetires : Prop :=
  ∀ s t : State, s.Cycles t →
    (s.m.content = none → t.counters.instCount = s.counters.instCount ∧ ∀ r, t.readReg r = s.readReg r) ∧
    (∀ m, s.m.content = some m → t.counters.instCount = s.counters.instCount + 1 ∧
      ∀ r, t.readReg r = if r ≠ 0#5 ∧ m.writeReg = true ∧ r = m.dest then m.out else s.readReg r)

/-- Memory: stores take effect in the cycle in which they are in Memory, and nothing else changes memory (R89, R202, R331);
and a completed cycle leaves in `M` the record of the instruction that was in `E`, and a bubble for a bubble (R44, R327):
its address, kind, destination, register write and class, with the value loaded and extended (R201), the console input of
calls 4 and 5 (R247, R248), or else what Execute computed. That the input stands in queues is the model's choice
(notes/assumptions/7.md). -/
def Obligations.CycleMemory : Prop :=
  (∀ s t : State, s.Cycles t → s.mem.wf = true →
    (∀ e, s.e.content = some e → e.readMem = false → e.writeMem = true → accessOk s.params e.out e.memLen.toNat = true ∧
      ((e.memLen = 1#3 ∨ e.memLen = 2#3 ∨ e.memLen = 4#3) → ∀ a, t.mem.read a =
        if e.out.toNat ≤ a ∧ a < e.out.toNat + e.memLen.toNat then e.op2.extractLsb' (8 * (a - e.out.toNat)) 8
        else s.mem.read a)) ∧
    ((∀ e, s.e.content = some e → e.writeMem = false) → t.mem = s.mem)) ∧
  (∀ s t : State, s.Cycles t → s.m.stall = 0#2 →
    (s.e.content = none → t.m.content = none) ∧
    ∀ e, s.e.content = some e → ∃ m, t.m.content = some m ∧ m.pc = e.pc ∧ m.kind = e.kind ∧ m.dest = e.dest ∧
      m.writeReg = e.writeReg ∧ m.loadClass = e.loadClass ∧
      (e.readMem = true →
        let byte := fun k => s.mem.read (e.out.toNat + k)
        accessOk s.params e.out e.memLen.toNat = true ∧
        (e.memLen = 1#3 → m.out = if e.signExt then (byte 0).signExtend 32 else (byte 0).setWidth 32) ∧
        (e.memLen = 2#3 → m.out = if e.signExt then (byte 1 ++ byte 0).signExtend 32 else (byte 1 ++ byte 0).setWidth 32) ∧
        (e.memLen = 4#3 → m.out = byte 3 ++ byte 2 ++ byte 1 ++ byte 0)) ∧
      (e.readMem = false → e.writeMem = false → e.kind = .ecall →
        (e.op2 = 4#32 → ∃ c rest, s.env.chars = c :: rest ∧ t.env.chars = rest ∧ m.out = c.setWidth 32) ∧
        (e.op2 = 5#32 → ∃ n rest, s.env.ints = n :: rest ∧ t.env.ints = rest ∧ m.out = n)) ∧
      (e.readMem = false → (e.writeMem = true ∨ e.kind ≠ .ecall ∨ (e.op2 ≠ 4#32 ∧ e.op2 ≠ 5#32)) → m.out = e.out))

/-- A fault at Memory (R332): WriteBack's register write is made, the cycle and the retiring instruction are counted, nothing
of the younger stages happens, and the run ends with that event, whatever the younger stages hold. The faults are those
of a load, a store, an unknown call, and a string byte of call 0 that cannot be read; the characters that such a call had
emitted before it stay emitted (R243). -/
def Obligations.MemoryEventEndsRun : Prop :=
  ∀ (s : State) (e : ERec) (v : FatalEvent) (printed : List OutEvent), s.status = .running →
    s.cycleStart.guardFails = false → s.e.content = some e →
    ((e.readMem = true ∧ accessOk s.params e.out e.memLen.toNat = false ∧ printed = [] ∧
        v = .memoryFault e.out e.memLen.toNat .load) ∨
     (e.readMem = false ∧ e.writeMem = true ∧ accessOk s.params e.out e.memLen.toNat = false ∧ printed = [] ∧
        v = .memoryFault e.out e.memLen.toNat .store) ∨
     (e.readMem = false ∧ e.writeMem = false ∧ e.kind = .ecall ∧ (∀ n ∈ [0, 1, 2, 3, 4, 5, 93], e.op2 ≠ BitVec.ofNat 32 n) ∧
        printed = [] ∧ v = .unknownSyscall e.op2) ∨
     (e.readMem = false ∧ e.writeMem = false ∧ e.kind = .ecall ∧ e.op2 = 0#32 ∧ ∃ n, s.stringAt e.op1 n ∧
        accessOk s.params (e.op1 + BitVec.ofNat 32 n) 1 = false ∧ printed = s.charsAt e.op1 n ∧
        v = .memoryFault (e.op1 + BitVec.ofNat 32 n) 1 .stringRead)) →
    ∃ t, step s = .next t ∧ t.status = .fatal v ∧ t.mem = s.mem ∧
      t.console = { s.console with output := s.console.output ++ printed } ∧ t.pc = s.restoreOrTick.pc ∧
      t.f = s.restoreOrTick.f ∧ t.d = s.d ∧ t.e = s.e ∧ t.m = s.m ∧
      (∀ r, t.readReg r = s.cycleStart.writeBackStage.readReg r) ∧
      t.counters = { s.counters with
        cycleCount := s.counters.cycleCount + 1
        instCount := s.counters.instCount + (if s.m.content.isSome then 1 else 0) }

/-- An event of Execute (a deferred fault or a DivideFault), or under `SPEC_FAULT = Immediate` of Decode (a word that is no
instruction, R324) or Fetch (a fetch fault, R323), ends the run with that event when no older stage has one (R332, R407):
WriteBack's write and all effects of Memory are made, and the register write of the instruction in Memory is lost. When no
stage has one, which under `SPEC_FAULT = Deferred` asks nothing of Decode and Fetch, the cycle completes. That a cycle which
ends in an event draws no latency and no answer is the model's choice (notes/assumptions/6.md and 14.md). -/
def Obligations.ExecuteEventEndsRun : Prop :=
  ∀ (s : State) (mn : Option MRec) (fx : Effects), s.status = .running → s.cycleStart.guardFails = false →
    s.cycleStart.MemoryDone mn fx →
    let execute := fun v => ∃ d, s.d.content = some d ∧ (executeRecord s.params d).event = some v
    let undecodable := fun v => ∃ f r, s.restoreOrTick.f.content = some f ∧ f.poison = none ∧
      decode s.params.mSet f.inst = .error r ∧ v = FatalEvent.decodeError f.pc f.inst r
    let unfetched := fun v => accessOk s.params s.restoreOrTick.pc 4 = false ∧
      v = FatalEvent.memoryFault s.restoreOrTick.pc 4 .fetch
    let immediate := s.params.specFault = .immediate
    (∀ v : FatalEvent,
      (execute v ∨ (immediate ∧ (∀ u, ¬execute u) ∧ undecodable v) ∨
        (immediate ∧ (∀ u, ¬execute u) ∧ (∀ u, ¬undecodable u) ∧ unfetched v)) →
      ∃ t, step s = .next t ∧ t.status = .fatal v ∧ t.pc = s.restoreOrTick.pc ∧ t.f = s.restoreOrTick.f ∧ t.d = s.d ∧
        t.e = s.e ∧ t.m = s.m ∧
        (∀ r, t.readReg r = s.cycleStart.writeBackStage.readReg r) ∧
        t.mem = (s.applyEffects fx).mem ∧ t.console = (s.applyEffects fx).console ∧ t.env = (s.applyEffects fx).env ∧
        (∀ e, s.e.content = some e → e.readMem = false → e.writeMem = true →
          t.mem = s.mem.writeLE e.out.toNat e.memLen.toNat e.op2 ∧ t.console = s.console) ∧
        (∀ e, s.e.content = some e → (e.readMem = true ∨ (e.writeMem = false ∧ e.kind ≠ .ecall)) →
          t.mem = s.mem ∧ t.console = s.console) ∧
        (∀ e, s.e.content = some e → e.readMem = false → e.writeMem = false → e.kind = .ecall →
          t.mem = s.mem ∧ t.console.output = s.console.output ++ fx.output ∧
          t.console.consumed = s.console.consumed ++ fx.consumed.toList) ∧
        (s.e.content = none → t.mem = s.mem ∧ t.console = s.console) ∧
        t.counters = { s.counters with
          cycleCount := s.counters.cycleCount + 1
          instCount := s.counters.instCount + (if s.m.content.isSome then 1 else 0) }) ∧
    ((∀ u, ¬execute u) → (immediate → (∀ u, ¬undecodable u) ∧ ∀ u, ¬unfetched u) → ∃ t, s.Cycles t)

/-- What raises at Execute (R325): a Poison record raises its event and an instruction raises only a DivideFault. -/
def Obligations.ExecuteEventsAre : Prop :=
  ∀ (p : Params) (d : DRec) (v : FatalEvent), (executeRecord p d).event = some v ↔
    (d.kind = .poison v ∨
      ∃ k, d.kind = .real k ∧ p.divCorner = .fault ∧ v = .divideFault k d.op1 d.op2 ∧
        (((k = .div ∨ k = .rem) ∧ (d.op2 = 0#32 ∨ (d.op1 = 0x80000000#32 ∧ d.op2 = 0xFFFFFFFF#32))) ∨
          ((k = .divu ∨ k = .remu) ∧ d.op2 = 0#32)))

/-- The exit event (R333): WriteBack's write is made, the exit call and the retiring instruction are counted, the guard runs
once more on the new registers, and the run ends. -/
def Obligations.ExitEndsRun : Prop :=
  ∀ (s : State) (e : ERec), s.status = .running → s.cycleStart.guardFails = false →
    s.e.content = some e → e.readMem = false → e.writeMem = false → e.kind = .ecall → (e.op2 = 3#32 ∨ e.op2 = 93#32) →
    ∃ t, step s = .next t ∧ t.mem = s.mem ∧ t.console = s.console ∧ t.pc = s.restoreOrTick.pc ∧
      t.f = s.restoreOrTick.f ∧ t.d = s.d ∧ t.e = s.e ∧ t.m = s.m ∧ t.x[0] = 0#32 ∧
      (∀ r, t.readReg r = s.cycleStart.writeBackStage.readReg r) ∧
      t.status = (if (t.readReg 2#5).toNat < (s.params.stackBase - s.params.stackMaxSize).toNat
        then .fatal (.stackOverflow (t.readReg 2#5)) else .exited) ∧
      (t.status = .exited → t.exitStatus = some 0) ∧
      t.counters = { s.counters with
        cycleCount := s.counters.cycleCount + 1
        instCount := s.counters.instCount + (if s.m.content.isSome then 1 else 0) + 1 }

/-- A cycle whose Memory stage makes a console read without input does not complete (R250). That waiting is a fault of
the model is its choice (notes/assumptions/7.md). -/
def Obligations.BlockingReadSuspends : Prop :=
  ∀ (s : State) (e : ERec), s.status = .running → s.cycleStart.guardFails = false →
    s.e.content = some e → e.readMem = false → e.writeMem = false → e.kind = .ecall →
    ((e.op2 = 4#32 ∧ s.env.chars = []) ∨ (e.op2 = 5#32 ∧ s.env.ints = [])) →
    step s = .fault .awaitingConsoleInput

/-- A control hazard (R337, R375): a jump, or a branch whose outcome is not the prediction, sets `pc` to its target, bubbles
`F` and `D`, stands the FSM down and counts one control hazard. -/
def Obligations.ControlHazardRedirects : Prop :=
  ∀ (s t : State) (d : DRec) (k : Kind), s.Cycles t → s.d.content = some d → d.kind = .real k →
    ∀ target,
      ((k = .jal ∧ target = d.pc + d.imm) ∨ (k = .jalr ∧ target = (d.op1 + d.imm) &&& 0xFFFFFFFE#32) ∨
        (k = .beq ∧ d.predictedBranch ≠ decide (d.op1 = d.op2) ∧ target = d.anotherPC) ∨
        (k = .bne ∧ d.predictedBranch ≠ decide (d.op1 ≠ d.op2) ∧ target = d.anotherPC) ∨
        (k = .blt ∧ d.predictedBranch ≠ decide (d.op1.toInt < d.op2.toInt) ∧ target = d.anotherPC) ∨
        (k = .bge ∧ d.predictedBranch ≠ decide (d.op2.toInt ≤ d.op1.toInt) ∧ target = d.anotherPC) ∨
        (k = .bltu ∧ d.predictedBranch ≠ decide (d.op1.toNat < d.op2.toNat) ∧ target = d.anotherPC) ∨
        (k = .bgeu ∧ d.predictedBranch ≠ decide (d.op2.toNat ≤ d.op1.toNat) ∧ target = d.anotherPC)) →
      t.pc = target ∧ t.f.content = none ∧ t.d.content = none ∧ t.fsm.countdown = 0#2 ∧ t.fsm.forwardFetcher = false ∧
        t.counters.controlHazardCount = s.counters.controlHazardCount + 1

/-- The next `pc` when Execute has no control hazard (R37, R338): a branch latched into `D` with the answer taken sends it to the
predicted target and bubbles `F`; in every other case it is the next word. -/
def Obligations.PredictedTakenRedirects : Prop :=
  ∀ s t : State, s.Cycles t → s.d.stall = 0#2 → s.cycleStart.executeStage.ctrl = none →
    (∀ d, t.d.content = some d → d.predictedBranch = true → t.pc = d.predictedPC ∧ t.f.content = none) ∧
    (∀ d, t.d.content = some d → d.predictedBranch = false → t.pc = s.restoreOrTick.pc + 4#32) ∧
    (t.d.content = none → t.pc = s.restoreOrTick.pc + 4#32)

/-- Arming (R371): a cycle with a claim of length `n` bubbles `D`, and for `n ≥ 2` bubbles `F`, while for `n = 1` `F` latches
the fetched record, unless the forward-fetcher flag or a control hazard bubbles it; it saves the cycle's decode input and
the fetch address and counts the claim by its class; and if no control hazard stands it down (R375) it sets the count to
`n`, and the flag for `n = 3`. -/
def Obligations.ClaimArmsReplay : Prop :=
  ∀ (s t : State) (c : Claim) (mn : Option MRec) (fx : Effects), s.Cycles t → s.cycleStart.MemoryDone mn fx →
    (hazardLogic s.params s.cycleStart.decodeStage.dn s.cycleStart.executeStage.en mn s.m.content).claim = some c →
    t.d.content = none ∧ (2 ≤ c.length.toNat → t.f.content = none) ∧
      (c.length = 1#2 → s.f.stall = 0#2 → s.fsm.forwardFetcher = false → s.cycleStart.executeStage.ctrl = none →
        t.f.content = some s.cycleStart.fetchStage.fn) ∧
      t.fsm.saved = s.restoreOrTick.f.content ∧ t.fsm.restorePC = s.restoreOrTick.pc ∧
      (s.cycleStart.executeStage.ctrl = none → t.fsm.countdown = c.length ∧ (c.length = 3#2 → t.fsm.forwardFetcher = true)) ∧
      (c.cls = .memory → t.counters.memoryHazardCount = s.counters.memoryHazardCount + 1) ∧
      (c.cls = .data → t.counters.memoryHazardCount = s.counters.memoryHazardCount ∧
        s.counters.dataHazardCount + 1 ≤ t.counters.dataHazardCount)

/-- Step 1 (R372, R374): at `countdown = 1` the cycle decodes the saved record and fetches at the restore address; at 2 or 3
the count falls by one and nothing else changes; at 0 nothing happens (R320). -/
def Obligations.RestoreAndTick : Prop :=
  ∀ s : State,
    (s.fsm.countdown = 1#2 → s.restoreOrTick.f.content = s.fsm.saved ∧ s.restoreOrTick.pc = s.fsm.restorePC ∧
      s.cycleStart.decodeStage =
        (match s.fsm.saved with
          | none => { dn := none, env := s.env, call := none, event := none }
          | some g => s.decodeRecord g) ∧
      s.cycleStart.fetchStage = ({ s with pc := s.fsm.restorePC }).fetchStage ∧ s.cycleStart.fsm.countdown = 0#2) ∧
    (2 ≤ s.fsm.countdown.toNat → s.restoreOrTick = { s with fsm := { s.fsm with countdown := s.fsm.countdown - 1#2 } }) ∧
    (s.fsm.countdown = 0#2 → s.restoreOrTick = s)

/-- The forward-fetcher flag (R373): a completed cycle that starts with it bubbles `F` and clears the flag, unless the cycle
itself makes a claim of 3, which sets it again. -/
def Obligations.ForwardFetcherSuppresses : Prop :=
  ∀ s t : State, s.Cycles t → s.fsm.forwardFetcher = true →
    t.f.content = none ∧ (t.fsm.countdown ≠ 3#2 → t.fsm.forwardFetcher = false)

/-- With forwarding (R352 to R356, R358 to R360), under either `X0_TRANSIENT`: for each operand that the consumer reads, the
youngest producer of its register supplies the value, where only a producer in Memory or WriteBack can supply `x0`, and
only under `X0_TRANSIENT = true`; if the producer in Execute that matches is load-class, it supplies none and the claim is
2 cycles, class Memory; nothing else claims. The tiers counted (R342, R354) are those that supply at least one register that
the consumer reads: a tier supplies its producer's register unless an older-checked tier has. -/
def Obligations.ForwardingPrecedence : Prop :=
  ∀ (p : Params) (d : DRec) (k : Kind) (p1 p2 p3 : Option Producer), p.forwarding = true → d.kind = .real k →
    let h := hazardTiers p d p1 p2 p3
    let hit := fun (zero : Bool) (q : Option Producer) (r : RegIdx) =>
      q.any (fun q => q.writeReg && q.dest == r && (zero || r != 0#5))
    let value := fun (r : RegIdx) (old : Word) =>
      if hit false p1 r && !(p1.any (·.loadClass)) then (p1.map (·.value)).getD old
      else if hit p.x0Transient p2 r then (p2.map (·.value)).getD old
      else if hit p.x0Transient p3 r then (p3.map (·.value)).getD old else old
    let supplies1 := fun r => hit false p1 r && !(p1.any (·.loadClass)) && d.reads r
    let supplies2 := fun r => hit p.x0Transient p2 r && d.reads r && !(supplies1 r)
    let supplies3 := fun r => hit p.x0Transient p3 r && d.reads r && !(supplies1 r) && !(supplies2 r)
    (h.claim = if p1.any (fun q => q.loadClass && hit false p1 q.dest && d.reads q.dest) then some ⟨2#2, .memory⟩ else none) ∧
    h.fwdTiers = (if ∃ r, supplies1 r = true then 1 else 0) + (if ∃ r, supplies2 r = true then 1 else 0) +
      (if ∃ r, supplies3 r = true then 1 else 0) ∧
    h.dn.op1 = (if k.readsRs1 then value d.rs1 d.op1 else d.op1) ∧
    h.dn.op2 = (if k.readsRs2 then value d.rs2 d.op2 else d.op2) ∧
    h.dn.op3 = (if k.readsRs3 then value d.rs3 d.op3 else d.op3)

/-- Without forwarding (R357 to R361): no operand changes; the claim is 3 for a producer in Execute that the consumer depends
on, else 2 for one in Memory, else 1 for one in WriteBack, with the class of the producer that made it. -/
def Obligations.ClaimsWithoutForwarding : Prop :=
  ∀ (p : Params) (d : DRec) (p1 p2 p3 : Option Producer), p.forwarding = false →
    let h := hazardTiers p d p1 p2 p3
    let dep := fun (q : Option Producer) => q.any (fun q => q.writeReg && q.dest != 0#5 && d.reads q.dest)
    let cls := fun (q : Option Producer) => if q.any (·.loadClass) then ClaimClass.memory else ClaimClass.data
    h.dn = d ∧ h.fwdTiers = 0 ∧
    h.claim = if dep p1 then some ⟨3#2, cls p1⟩ else if dep p2 then some ⟨2#2, cls p2⟩
      else if dep p3 then some ⟨1#2, cls p3⟩ else none

/-- `X0_TRANSIENT = true` (R353): a producer of `x0` in Memory, or one in WriteBack when Memory holds none, reaches every
operand that names `x0`; one in Execute reaches none; claims with forwarding disabled still need a nonzero destination;
and the register file still reads zero after the cycle. -/
def Obligations.X0TransientForwards : Prop :=
  (∀ (p : Params) (d : DRec) (k : Kind) (p1 p2 p3 : Option Producer) (q : Producer), p.forwarding = true →
    p.x0Transient = true → d.kind = .real k → q.dest = 0#5 → q.writeReg = true →
    (p2 = some q ∨ (p2.all (fun r => !(r.writeReg && r.dest == 0#5)) = true ∧ p3 = some q)) →
    (k.readsRs1 = true → d.rs1 = 0#5 → (hazardTiers p d p1 p2 p3).dn.op1 = q.value) ∧
    (k.readsRs2 = true → d.rs2 = 0#5 → (hazardTiers p d p1 p2 p3).dn.op2 = q.value) ∧
    (k.readsRs3 = true → d.rs3 = 0#5 → (hazardTiers p d p1 p2 p3).dn.op3 = q.value)) ∧
  (∀ (p : Params) (d : DRec) (q : Producer), q.dest = 0#5 →
    (hazardTiers p d (some q) none none).dn = d ∧ (hazardTiers p d (some q) none none).claim = none) ∧
  (∀ (p : Params) (d : DRec) (q2 q3 : Producer), p.forwarding = false → q2.dest = 0#5 → q3.dest = 0#5 →
    (hazardTiers p d none (some q2) (some q3)).claim = none) ∧
  (∀ s t : State, s.Cycles t → t.readReg 0#5 = 0#32 ∧ t.x[0] = 0#32)

/-- The counters of a completed cycle (R340 to R342). The cycle count grows by 1, by 3 for a multiply or fused kind in Execute,
and by the latencies drawn for the data accesses in Memory (R91): one for a load or a store, one for each byte that a
print-string call reads, none else. A branch in Execute moves the hit counter if its outcome is its prediction, else the
miss counter. The data hazards grow by the tiers that forwarded, plus 1 for a claim of class Data, the memory hazards by 1
for a claim of class Memory, and the control hazards by 1 if Execute set a target. How the latencies are drawn is the
model's choice (notes/assumptions/6.md). -/
def Obligations.CountersOfACycle : Prop :=
  ∀ (s t : State) (mn : Option MRec) (fx : Effects), s.Cycles t → s.cycleStart.MemoryDone mn fx →
    let h := hazardLogic s.params s.cycleStart.decodeStage.dn s.cycleStart.executeStage.en mn s.m.content
    t.counters.cycleCount = s.counters.cycleCount + 1 + (s.env.drawLatencies fx.accesses).1 +
      (if s.d.content.any (fun d => match d.kind with
        | .real k => k.isMulPenalty
        | .poison _ => false) then 3 else 0) ∧
    (∀ e, s.e.content = some e → (e.readMem || e.writeMem) = true → fx.accesses = 1) ∧
    (∀ e n, s.e.content = some e → (e.readMem || e.writeMem) = false → e.kind = .ecall → e.op2 = 0#32 → s.stringAt e.op1 n →
      accessOk s.params (e.op1 + BitVec.ofNat 32 n) 1 = true → s.mem.read (e.op1 + BitVec.ofNat 32 n).toNat = 0#8 →
      fx.accesses = n + 1) ∧
    (s.e.content.all (fun e => !e.readMem && !e.writeMem && !(e.kind == .ecall && e.op2 == 0#32)) = true → fx.accesses = 0) ∧
    t.counters.instCount = s.counters.instCount + (if s.m.content.isSome then 1 else 0) ∧
    t.counters.branchHit = s.counters.branchHit +
      (if s.resolved.any (fun r => r.2 == r.1.predictedBranch) then 1 else 0) ∧
    t.counters.branchMiss = s.counters.branchMiss +
      (if s.resolved.any (fun r => r.2 != r.1.predictedBranch) then 1 else 0) ∧
    t.counters.dataHazardCount = s.counters.dataHazardCount + h.fwdTiers +
      (if h.claim.any (·.cls == .data) then 1 else 0) ∧
    t.counters.memoryHazardCount = s.counters.memoryHazardCount + (if h.claim.any (·.cls == .memory) then 1 else 0) ∧
    t.counters.controlHazardCount = s.counters.controlHazardCount +
      (if s.cycleStart.executeStage.ctrl.isSome then 1 else 0)

/-- No counter ever decreases (R50). -/
def Obligations.CountersNeverDecrease : Prop :=
  ∀ s t : State, step s = .next t →
    s.counters.cycleCount ≤ t.counters.cycleCount ∧ s.counters.instCount ≤ t.counters.instCount ∧
    s.counters.dataHazardCount ≤ t.counters.dataHazardCount ∧
    s.counters.controlHazardCount ≤ t.counters.controlHazardCount ∧
    s.counters.memoryHazardCount ≤ t.counters.memoryHazardCount ∧ s.counters.branchHit ≤ t.counters.branchHit ∧
    s.counters.branchMiss ≤ t.counters.branchMiss

/-- The configuration inputs and parameters are constant for a run (R53). -/
def Obligations.ParametersConstant : Prop :=
  (∀ s t : State, step s = .next t → t.params = s.params) ∧ (∀ i s t, exec i s = .next t → t.params = s.params)

/-- The state after reset (R431), for every choice of the parameters, the loaded image and the waiting input. -/
def Obligations.ResetState : Prop :=
  ∀ (p : Params) (image : Memory) (env : Env),
    let s := State.resetWith p image env
    s.readReg 0#5 = 0#32 ∧ s.x[0] = 0#32 ∧ s.readReg 2#5 = p.stackBase ∧
    (∀ r : Fin 32, r ≠ 0 → r ≠ 2 → s.x[r] = p.rfInit[r]) ∧
    s.pc = p.entryPC ∧ s.f.content = none ∧ s.d.content = none ∧ s.e.content = none ∧ s.m.content = none ∧
    s.f.stall = 0#2 ∧ s.d.stall = 0#2 ∧ s.e.stall = 0#2 ∧ s.m.stall = 0#2 ∧
    s.fsm = ⟨0#2, none, 0#32, false⟩ ∧ s.counters = ⟨0, 0, 0, 0, 0, 0, 0⟩ ∧ s.status = .running ∧
    s.console = ⟨[], []⟩ ∧ s.mem = image ∧ s.params = p ∧ s.env = env ∧ (∀ r : Fin 32, Params.default.rfInit[r] = 0#32)

/-! ## Invariants -/

/-- The invariant holds after reset with any parameters and any canonical image. The canonical form is the model's
choice (notes/assumptions/2.md). -/
def Obligations.InvariantAtReset : Prop :=
  State.reset.inv = true ∧
    ∀ (p : Params) (image : Memory) (env : Env), image.wf = true → (State.resetWith p image env).inv = true

/-- Every step keeps the invariant: canonical memory, zero `x0`, no stalled register (R46), the fetch address after the
fetched word, well-made records, and the window of the stall FSM (R370). The canonical form is the model's choice
(notes/assumptions/2.md). -/
def Obligations.InvariantKept : Prop :=
  ∀ s t : State, s.inv = true → step s = .next t → t.inv = true

/-- Every completed cycle leaves the operands in `D` coherent: forwarding and stalls give each source the value it has once the
older instructions are complete (R440), with forwarding enabled or not. -/
def Obligations.OperandsAreCoherent : Prop :=
  ∀ s t : State, s.inv = true → s.params.x0Transient = false → s.Cycles t → t.coherent

/-! ## The step and the instructions -/

/-- The step runs the instruction of the word given to it: with word `w` placed for the next fetch, the next step is a
cycle that puts into `E` the record of the instruction that the decoder reads from `w`, as its rule fills it. What
placing a word does is the model's choice (notes/assumptions/4.md). -/
def Obligations.StepExecutesPlacedWord : Prop :=
  ∀ (s : State) (nbits w : Nat) (i : Instr), s.status = .running → s.guardFails = false → s.params.specFault = .deferred →
    decodeTableWord nbits w = some i →
    let d := (s.decodeInstr s.pc (BitVec.ofNat 32 (w % 2 ^ nbits)) i).record
    (executeKind i.kind s.params d).event = none →
    ∃ t, step (s.withFetchWord nbits w) = .next t ∧ t.status = .running ∧
      t.e.content = some ((executeKind i.kind s.params d).record i.kind d)

/-- The pipeline and the meanings agree on a lone instruction: when its record is in `D` and nothing else is in flight, three
cycles leave the registers, memory, console and instruction count that `exec` gives, and the next instruction to reach
Execute is the one at the address that `exec` gives, a branch's by its outcome and not by its prediction (R221); an end of
the run or a wait that `exec` gives comes within two. What placing a word does, and what `exec` is, are the model's
choices (notes/assumptions/4.md and 5.md). -/
def Obligations.ThreeCyclesRunTheMeaning : Prop :=
  ∀ (s : State) (w : Word) (i : Instr), s.status = .running → s.x[0] = 0#32 → s.guardFails = false →
    s.params.specFault = .deferred → decode s.params.mSet w = .ok i →
    (∀ t, exec i s = .next t → t.status = .running →
      ∃ s1 s2 s3, step (s.placeInD w) = .next s1 ∧ step s1 = .next s2 ∧ step s2 = .next s3 ∧
        s3.x = t.x ∧ s3.mem = t.mem ∧ s3.console = t.console ∧ s3.env.chars = t.env.chars ∧ s3.env.ints = t.env.ints ∧
        s3.counters.instCount = t.counters.instCount ∧ s1.frontPC = t.pc) ∧
    (∀ t, exec i s = .next t → t.status ≠ .running →
      ∃ s1, step (s.placeInD w) = .next s1 ∧
        (s1.status = t.status ∨ ∃ s2, step s1 = .next s2 ∧ s2.status = t.status ∧ s2.x = t.x ∧ s2.mem = t.mem ∧
          s2.console = t.console)) ∧
    (∀ v, exec i s = .fault v → ∃ s1, step (s.placeInD w) = .next s1 ∧ step s1 = .fault v)

/-- From the bytes at `pc`: with nothing in flight, the four bytes at `pc` decoding to `i`, and five cycles that
complete, `i` has run as `exec` says: its effect on memory and console is there after the fourth cycle, its register
write after the fifth (R432). What `exec` is, is the model's choice (notes/assumptions/5.md). -/
def Obligations.FiveCyclesRunTheBytesAtPC : Prop :=
  ∀ (s s1 s2 s3 s4 s5 : State) (i : Instr), s.x[0] = 0#32 →
    s.f = Slot.empty → s.d = Slot.empty → s.e = Slot.empty → s.m = Slot.empty → s.fsm.countdown = 0#2 →
    s.fsm.forwardFetcher = false → accessOk s.params s.pc 4 = true →
    decodeBytes s.params.mSet [s.mem.read s.pc.toNat, s.mem.read (s.pc.toNat + 1), s.mem.read (s.pc.toNat + 2),
      s.mem.read (s.pc.toNat + 3)] = .ok (i, []) →
    s.Cycles s1 → s1.Cycles s2 → s2.Cycles s3 → s3.Cycles s4 → s4.Cycles s5 →
    ∃ t, exec i s = .next t ∧ t.status = .running ∧ s4.mem = t.mem ∧ s4.console = t.console ∧ s5.x = t.x ∧
      s5.counters.instCount = t.counters.instCount

/-- The pipeline is the sequential machine (R346): from a coherent state of the invariant whose in-flight instructions
complete, every completed cycle leaves the program's view as it was, or moves it by exactly one instruction, the one
in `F`, as `exec` gives it, whatever the predictor answers and whether or not forwarding is enabled. What `exec` is,
is the model's choice (notes/assumptions/5.md). -/
def Obligations.PipelineRefinesSequential : Prop :=
  ∀ (s t : State) (a : Arch), s.inv = true → s.params.x0Transient = false → s.coherent → s.Cycles t → s.drain = some a →
    t.drain = some a ∨
    ∃ f, s.cycleStart.f.content = some f ∧ f.pc = a.pc ∧
      ((f.poison.isSome = true ∧ t.drain = none) ∨
       (f.poison = none ∧ (∃ r, decode s.params.mSet f.inst = .error r) ∧ t.drain = none) ∨
       (f.poison = none ∧ ∃ i, decode s.params.mSet f.inst = .ok i ∧
         ∀ u : State, u.arch = a → u.params = s.params → u.status = .running →
           match exec i u with
           | .next v => t.drain = (if v.status = .running then some v.arch else none)
           | .fault _ => t.drain = none
           | .refused _ => False))
end

