-- ==== Sys2Proof/Laws/State.lean ====
section
/-! SUPPORT. What each update of the state leaves alone and what it sets, one lemma per field per update, so that no later
proof unfolds a record update. -/

namespace Sys2Proof.Machine

variable (s : State)

/-! ### `writeReg` -/

@[simp] theorem State.writeReg_pc (r : RegIdx) (v : Word) : (s.writeReg r v).pc = s.pc := by unfold State.writeReg; split <;> rfl
@[simp] theorem State.writeReg_f (r : RegIdx) (v : Word) : (s.writeReg r v).f = s.f := by unfold State.writeReg; split <;> rfl
@[simp] theorem State.writeReg_d (r : RegIdx) (v : Word) : (s.writeReg r v).d = s.d := by unfold State.writeReg; split <;> rfl
@[simp] theorem State.writeReg_e (r : RegIdx) (v : Word) : (s.writeReg r v).e = s.e := by unfold State.writeReg; split <;> rfl
@[simp] theorem State.writeReg_m (r : RegIdx) (v : Word) : (s.writeReg r v).m = s.m := by unfold State.writeReg; split <;> rfl
@[simp] theorem State.writeReg_fsm (r : RegIdx) (v : Word) : (s.writeReg r v).fsm = s.fsm := by unfold State.writeReg; split <;> rfl
@[simp] theorem State.writeReg_counters (r : RegIdx) (v : Word) : (s.writeReg r v).counters = s.counters := by unfold State.writeReg; split <;> rfl
@[simp] theorem State.writeReg_status (r : RegIdx) (v : Word) : (s.writeReg r v).status = s.status := by unfold State.writeReg; split <;> rfl
@[simp] theorem State.writeReg_console (r : RegIdx) (v : Word) : (s.writeReg r v).console = s.console := by unfold State.writeReg; split <;> rfl
@[simp] theorem State.writeReg_predictorLog (r : RegIdx) (v : Word) : (s.writeReg r v).predictorLog = s.predictorLog := by unfold State.writeReg; split <;> rfl
@[simp] theorem State.writeReg_env (r : RegIdx) (v : Word) : (s.writeReg r v).env = s.env := by unfold State.writeReg; split <;> rfl
@[simp] theorem State.writeReg_mem (r : RegIdx) (v : Word) : (s.writeReg r v).mem = s.mem := by unfold State.writeReg; split <;> rfl
@[simp] theorem State.writeReg_params (r : RegIdx) (v : Word) : (s.writeReg r v).params = s.params := by unfold State.writeReg; split <;> rfl

/-! ### `forceX0` -/

@[simp] theorem State.forceX0_pc : (s.forceX0).pc = s.pc := rfl
@[simp] theorem State.forceX0_f : (s.forceX0).f = s.f := rfl
@[simp] theorem State.forceX0_d : (s.forceX0).d = s.d := rfl
@[simp] theorem State.forceX0_e : (s.forceX0).e = s.e := rfl
@[simp] theorem State.forceX0_m : (s.forceX0).m = s.m := rfl
@[simp] theorem State.forceX0_fsm : (s.forceX0).fsm = s.fsm := rfl
@[simp] theorem State.forceX0_counters : (s.forceX0).counters = s.counters := rfl
@[simp] theorem State.forceX0_status : (s.forceX0).status = s.status := rfl
@[simp] theorem State.forceX0_console : (s.forceX0).console = s.console := rfl
@[simp] theorem State.forceX0_predictorLog : (s.forceX0).predictorLog = s.predictorLog := rfl
@[simp] theorem State.forceX0_env : (s.forceX0).env = s.env := rfl
@[simp] theorem State.forceX0_mem : (s.forceX0).mem = s.mem := rfl
@[simp] theorem State.forceX0_params : (s.forceX0).params = s.params := rfl

/-! ### `emit` -/

@[simp] theorem State.emit_x (o : List OutEvent) : (s.emit o).x = s.x := rfl
@[simp] theorem State.emit_pc (o : List OutEvent) : (s.emit o).pc = s.pc := rfl
@[simp] theorem State.emit_f (o : List OutEvent) : (s.emit o).f = s.f := rfl
@[simp] theorem State.emit_d (o : List OutEvent) : (s.emit o).d = s.d := rfl
@[simp] theorem State.emit_e (o : List OutEvent) : (s.emit o).e = s.e := rfl
@[simp] theorem State.emit_m (o : List OutEvent) : (s.emit o).m = s.m := rfl
@[simp] theorem State.emit_fsm (o : List OutEvent) : (s.emit o).fsm = s.fsm := rfl
@[simp] theorem State.emit_counters (o : List OutEvent) : (s.emit o).counters = s.counters := rfl
@[simp] theorem State.emit_status (o : List OutEvent) : (s.emit o).status = s.status := rfl
@[simp] theorem State.emit_predictorLog (o : List OutEvent) : (s.emit o).predictorLog = s.predictorLog := rfl
@[simp] theorem State.emit_env (o : List OutEvent) : (s.emit o).env = s.env := rfl
@[simp] theorem State.emit_mem (o : List OutEvent) : (s.emit o).mem = s.mem := rfl
@[simp] theorem State.emit_params (o : List OutEvent) : (s.emit o).params = s.params := rfl

/-! ### `performStore` -/

@[simp] theorem State.performStore_x (st : Option PendingStore) : (s.performStore st).x = s.x := by cases st <;> rfl
@[simp] theorem State.performStore_pc (st : Option PendingStore) : (s.performStore st).pc = s.pc := by cases st <;> rfl
@[simp] theorem State.performStore_f (st : Option PendingStore) : (s.performStore st).f = s.f := by cases st <;> rfl
@[simp] theorem State.performStore_d (st : Option PendingStore) : (s.performStore st).d = s.d := by cases st <;> rfl
@[simp] theorem State.performStore_e (st : Option PendingStore) : (s.performStore st).e = s.e := by cases st <;> rfl
@[simp] theorem State.performStore_m (st : Option PendingStore) : (s.performStore st).m = s.m := by cases st <;> rfl
@[simp] theorem State.performStore_fsm (st : Option PendingStore) : (s.performStore st).fsm = s.fsm := by cases st <;> rfl
@[simp] theorem State.performStore_counters (st : Option PendingStore) : (s.performStore st).counters = s.counters := by cases st <;> rfl
@[simp] theorem State.performStore_status (st : Option PendingStore) : (s.performStore st).status = s.status := by cases st <;> rfl
@[simp] theorem State.performStore_console (st : Option PendingStore) : (s.performStore st).console = s.console := by cases st <;> rfl
@[simp] theorem State.performStore_predictorLog (st : Option PendingStore) : (s.performStore st).predictorLog = s.predictorLog := by cases st <;> rfl
@[simp] theorem State.performStore_env (st : Option PendingStore) : (s.performStore st).env = s.env := by cases st <;> rfl
@[simp] theorem State.performStore_params (st : Option PendingStore) : (s.performStore st).params = s.params := by cases st <;> rfl

/-! ### `consume` -/

@[simp] theorem State.consume_x (c : Option InEvent) : (s.consume c).x = s.x := by rcases c with _ | (_ | _) <;> rfl
@[simp] theorem State.consume_pc (c : Option InEvent) : (s.consume c).pc = s.pc := by rcases c with _ | (_ | _) <;> rfl
@[simp] theorem State.consume_f (c : Option InEvent) : (s.consume c).f = s.f := by rcases c with _ | (_ | _) <;> rfl
@[simp] theorem State.consume_d (c : Option InEvent) : (s.consume c).d = s.d := by rcases c with _ | (_ | _) <;> rfl
@[simp] theorem State.consume_e (c : Option InEvent) : (s.consume c).e = s.e := by rcases c with _ | (_ | _) <;> rfl
@[simp] theorem State.consume_m (c : Option InEvent) : (s.consume c).m = s.m := by rcases c with _ | (_ | _) <;> rfl
@[simp] theorem State.consume_fsm (c : Option InEvent) : (s.consume c).fsm = s.fsm := by rcases c with _ | (_ | _) <;> rfl
@[simp] theorem State.consume_counters (c : Option InEvent) : (s.consume c).counters = s.counters := by rcases c with _ | (_ | _) <;> rfl
@[simp] theorem State.consume_status (c : Option InEvent) : (s.consume c).status = s.status := by rcases c with _ | (_ | _) <;> rfl
@[simp] theorem State.consume_predictorLog (c : Option InEvent) : (s.consume c).predictorLog = s.predictorLog := by rcases c with _ | (_ | _) <;> rfl
@[simp] theorem State.consume_mem (c : Option InEvent) : (s.consume c).mem = s.mem := by rcases c with _ | (_ | _) <;> rfl
@[simp] theorem State.consume_params (c : Option InEvent) : (s.consume c).params = s.params := by rcases c with _ | (_ | _) <;> rfl

/-! ### `applyEffects` -/

@[simp] theorem State.applyEffects_x (fx : Effects) : (s.applyEffects fx).x = s.x := by simp [State.applyEffects]
@[simp] theorem State.applyEffects_pc (fx : Effects) : (s.applyEffects fx).pc = s.pc := by simp [State.applyEffects]
@[simp] theorem State.applyEffects_f (fx : Effects) : (s.applyEffects fx).f = s.f := by simp [State.applyEffects]
@[simp] theorem State.applyEffects_d (fx : Effects) : (s.applyEffects fx).d = s.d := by simp [State.applyEffects]
@[simp] theorem State.applyEffects_e (fx : Effects) : (s.applyEffects fx).e = s.e := by simp [State.applyEffects]
@[simp] theorem State.applyEffects_m (fx : Effects) : (s.applyEffects fx).m = s.m := by simp [State.applyEffects]
@[simp] theorem State.applyEffects_fsm (fx : Effects) : (s.applyEffects fx).fsm = s.fsm := by simp [State.applyEffects]
@[simp] theorem State.applyEffects_counters (fx : Effects) : (s.applyEffects fx).counters = s.counters := by simp [State.applyEffects]
@[simp] theorem State.applyEffects_status (fx : Effects) : (s.applyEffects fx).status = s.status := by simp [State.applyEffects]
@[simp] theorem State.applyEffects_predictorLog (fx : Effects) : (s.applyEffects fx).predictorLog = s.predictorLog := by simp [State.applyEffects]
@[simp] theorem State.applyEffects_params (fx : Effects) : (s.applyEffects fx).params = s.params := by simp [State.applyEffects]

/-! ### `logPredictor` -/

@[simp] theorem State.logPredictor_x (c : Option PredictorCall) : (s.logPredictor c).x = s.x := by cases c <;> rfl
@[simp] theorem State.logPredictor_pc (c : Option PredictorCall) : (s.logPredictor c).pc = s.pc := by cases c <;> rfl
@[simp] theorem State.logPredictor_f (c : Option PredictorCall) : (s.logPredictor c).f = s.f := by cases c <;> rfl
@[simp] theorem State.logPredictor_d (c : Option PredictorCall) : (s.logPredictor c).d = s.d := by cases c <;> rfl
@[simp] theorem State.logPredictor_e (c : Option PredictorCall) : (s.logPredictor c).e = s.e := by cases c <;> rfl
@[simp] theorem State.logPredictor_m (c : Option PredictorCall) : (s.logPredictor c).m = s.m := by cases c <;> rfl
@[simp] theorem State.logPredictor_fsm (c : Option PredictorCall) : (s.logPredictor c).fsm = s.fsm := by cases c <;> rfl
@[simp] theorem State.logPredictor_counters (c : Option PredictorCall) : (s.logPredictor c).counters = s.counters := by cases c <;> rfl
@[simp] theorem State.logPredictor_status (c : Option PredictorCall) : (s.logPredictor c).status = s.status := by cases c <;> rfl
@[simp] theorem State.logPredictor_console (c : Option PredictorCall) : (s.logPredictor c).console = s.console := by cases c <;> rfl
@[simp] theorem State.logPredictor_env (c : Option PredictorCall) : (s.logPredictor c).env = s.env := by cases c <;> rfl
@[simp] theorem State.logPredictor_mem (c : Option PredictorCall) : (s.logPredictor c).mem = s.mem := by cases c <;> rfl
@[simp] theorem State.logPredictor_params (c : Option PredictorCall) : (s.logPredictor c).params = s.params := by cases c <;> rfl

/-! ### `writeBack` -/

@[simp] theorem State.writeBack_pc (r : MRec) : (s.writeBack r).pc = s.pc := by unfold State.writeBack; split <;> simp
@[simp] theorem State.writeBack_f (r : MRec) : (s.writeBack r).f = s.f := by unfold State.writeBack; split <;> simp
@[simp] theorem State.writeBack_d (r : MRec) : (s.writeBack r).d = s.d := by unfold State.writeBack; split <;> simp
@[simp] theorem State.writeBack_e (r : MRec) : (s.writeBack r).e = s.e := by unfold State.writeBack; split <;> simp
@[simp] theorem State.writeBack_m (r : MRec) : (s.writeBack r).m = s.m := by unfold State.writeBack; split <;> simp
@[simp] theorem State.writeBack_fsm (r : MRec) : (s.writeBack r).fsm = s.fsm := by unfold State.writeBack; split <;> simp
@[simp] theorem State.writeBack_counters (r : MRec) : (s.writeBack r).counters = s.counters := by unfold State.writeBack; split <;> simp
@[simp] theorem State.writeBack_status (r : MRec) : (s.writeBack r).status = s.status := by unfold State.writeBack; split <;> simp
@[simp] theorem State.writeBack_console (r : MRec) : (s.writeBack r).console = s.console := by unfold State.writeBack; split <;> simp
@[simp] theorem State.writeBack_predictorLog (r : MRec) : (s.writeBack r).predictorLog = s.predictorLog := by unfold State.writeBack; split <;> simp
@[simp] theorem State.writeBack_env (r : MRec) : (s.writeBack r).env = s.env := by unfold State.writeBack; split <;> simp
@[simp] theorem State.writeBack_mem (r : MRec) : (s.writeBack r).mem = s.mem := by unfold State.writeBack; split <;> simp
@[simp] theorem State.writeBack_params (r : MRec) : (s.writeBack r).params = s.params := by unfold State.writeBack; split <;> simp

/-! ### `writeBackStage` -/

@[simp] theorem State.writeBackStage_pc : (s.writeBackStage).pc = s.pc := by unfold State.writeBackStage; split <;> simp
@[simp] theorem State.writeBackStage_f : (s.writeBackStage).f = s.f := by unfold State.writeBackStage; split <;> simp
@[simp] theorem State.writeBackStage_d : (s.writeBackStage).d = s.d := by unfold State.writeBackStage; split <;> simp
@[simp] theorem State.writeBackStage_e : (s.writeBackStage).e = s.e := by unfold State.writeBackStage; split <;> simp
@[simp] theorem State.writeBackStage_m : (s.writeBackStage).m = s.m := by unfold State.writeBackStage; split <;> simp
@[simp] theorem State.writeBackStage_fsm : (s.writeBackStage).fsm = s.fsm := by unfold State.writeBackStage; split <;> simp
@[simp] theorem State.writeBackStage_counters : (s.writeBackStage).counters = s.counters := by unfold State.writeBackStage; split <;> simp
@[simp] theorem State.writeBackStage_status : (s.writeBackStage).status = s.status := by unfold State.writeBackStage; split <;> simp
@[simp] theorem State.writeBackStage_console : (s.writeBackStage).console = s.console := by unfold State.writeBackStage; split <;> simp
@[simp] theorem State.writeBackStage_predictorLog : (s.writeBackStage).predictorLog = s.predictorLog := by unfold State.writeBackStage; split <;> simp
@[simp] theorem State.writeBackStage_env : (s.writeBackStage).env = s.env := by unfold State.writeBackStage; split <;> simp
@[simp] theorem State.writeBackStage_mem : (s.writeBackStage).mem = s.mem := by unfold State.writeBackStage; split <;> simp
@[simp] theorem State.writeBackStage_params : (s.writeBackStage).params = s.params := by unfold State.writeBackStage; split <;> simp

/-! ### `count` -/

@[simp] theorem State.count_x (a b : Nat) : (s.count a b).x = s.x := rfl
@[simp] theorem State.count_pc (a b : Nat) : (s.count a b).pc = s.pc := rfl
@[simp] theorem State.count_f (a b : Nat) : (s.count a b).f = s.f := rfl
@[simp] theorem State.count_d (a b : Nat) : (s.count a b).d = s.d := rfl
@[simp] theorem State.count_e (a b : Nat) : (s.count a b).e = s.e := rfl
@[simp] theorem State.count_m (a b : Nat) : (s.count a b).m = s.m := rfl
@[simp] theorem State.count_fsm (a b : Nat) : (s.count a b).fsm = s.fsm := rfl
@[simp] theorem State.count_status (a b : Nat) : (s.count a b).status = s.status := rfl
@[simp] theorem State.count_console (a b : Nat) : (s.count a b).console = s.console := rfl
@[simp] theorem State.count_predictorLog (a b : Nat) : (s.count a b).predictorLog = s.predictorLog := rfl
@[simp] theorem State.count_env (a b : Nat) : (s.count a b).env = s.env := rfl
@[simp] theorem State.count_mem (a b : Nat) : (s.count a b).mem = s.mem := rfl
@[simp] theorem State.count_params (a b : Nat) : (s.count a b).params = s.params := rfl

/-! ### `raise` -/

@[simp] theorem State.raise_x (v : FatalEvent) : (s.raise v).x = s.x := rfl
@[simp] theorem State.raise_pc (v : FatalEvent) : (s.raise v).pc = s.pc := rfl
@[simp] theorem State.raise_f (v : FatalEvent) : (s.raise v).f = s.f := rfl
@[simp] theorem State.raise_d (v : FatalEvent) : (s.raise v).d = s.d := rfl
@[simp] theorem State.raise_e (v : FatalEvent) : (s.raise v).e = s.e := rfl
@[simp] theorem State.raise_m (v : FatalEvent) : (s.raise v).m = s.m := rfl
@[simp] theorem State.raise_fsm (v : FatalEvent) : (s.raise v).fsm = s.fsm := rfl
@[simp] theorem State.raise_counters (v : FatalEvent) : (s.raise v).counters = s.counters := rfl
@[simp] theorem State.raise_console (v : FatalEvent) : (s.raise v).console = s.console := rfl
@[simp] theorem State.raise_predictorLog (v : FatalEvent) : (s.raise v).predictorLog = s.predictorLog := rfl
@[simp] theorem State.raise_env (v : FatalEvent) : (s.raise v).env = s.env := rfl
@[simp] theorem State.raise_mem (v : FatalEvent) : (s.raise v).mem = s.mem := rfl
@[simp] theorem State.raise_params (v : FatalEvent) : (s.raise v).params = s.params := rfl

/-! ### `exitRun` -/

@[simp] theorem State.exitRun_pc : (s.exitRun).pc = s.pc := by unfold State.exitRun; dsimp only; split <;> rfl
@[simp] theorem State.exitRun_f : (s.exitRun).f = s.f := by unfold State.exitRun; dsimp only; split <;> rfl
@[simp] theorem State.exitRun_d : (s.exitRun).d = s.d := by unfold State.exitRun; dsimp only; split <;> rfl
@[simp] theorem State.exitRun_e : (s.exitRun).e = s.e := by unfold State.exitRun; dsimp only; split <;> rfl
@[simp] theorem State.exitRun_m : (s.exitRun).m = s.m := by unfold State.exitRun; dsimp only; split <;> rfl
@[simp] theorem State.exitRun_fsm : (s.exitRun).fsm = s.fsm := by unfold State.exitRun; dsimp only; split <;> rfl
@[simp] theorem State.exitRun_counters : (s.exitRun).counters = s.counters := by unfold State.exitRun; dsimp only; split <;> rfl
@[simp] theorem State.exitRun_console : (s.exitRun).console = s.console := by unfold State.exitRun; dsimp only; split <;> rfl
@[simp] theorem State.exitRun_predictorLog : (s.exitRun).predictorLog = s.predictorLog := by unfold State.exitRun; dsimp only; split <;> rfl
@[simp] theorem State.exitRun_env : (s.exitRun).env = s.env := by unfold State.exitRun; dsimp only; split <;> rfl
@[simp] theorem State.exitRun_mem : (s.exitRun).mem = s.mem := by unfold State.exitRun; dsimp only; split <;> rfl
@[simp] theorem State.exitRun_params : (s.exitRun).params = s.params := by unfold State.exitRun; dsimp only; split <;> rfl

/-! ### `restoreOrTick` -/

@[simp] theorem State.restoreOrTick_x : (s.restoreOrTick).x = s.x := by unfold State.restoreOrTick; split_ifs <;> rfl
@[simp] theorem State.restoreOrTick_d : (s.restoreOrTick).d = s.d := by unfold State.restoreOrTick; split_ifs <;> rfl
@[simp] theorem State.restoreOrTick_e : (s.restoreOrTick).e = s.e := by unfold State.restoreOrTick; split_ifs <;> rfl
@[simp] theorem State.restoreOrTick_m : (s.restoreOrTick).m = s.m := by unfold State.restoreOrTick; split_ifs <;> rfl
@[simp] theorem State.restoreOrTick_counters : (s.restoreOrTick).counters = s.counters := by unfold State.restoreOrTick; split_ifs <;> rfl
@[simp] theorem State.restoreOrTick_status : (s.restoreOrTick).status = s.status := by unfold State.restoreOrTick; split_ifs <;> rfl
@[simp] theorem State.restoreOrTick_console : (s.restoreOrTick).console = s.console := by unfold State.restoreOrTick; split_ifs <;> rfl
@[simp] theorem State.restoreOrTick_predictorLog : (s.restoreOrTick).predictorLog = s.predictorLog := by unfold State.restoreOrTick; split_ifs <;> rfl
@[simp] theorem State.restoreOrTick_env : (s.restoreOrTick).env = s.env := by unfold State.restoreOrTick; split_ifs <;> rfl
@[simp] theorem State.restoreOrTick_mem : (s.restoreOrTick).mem = s.mem := by unfold State.restoreOrTick; split_ifs <;> rfl
@[simp] theorem State.restoreOrTick_params : (s.restoreOrTick).params = s.params := by unfold State.restoreOrTick; split_ifs <;> rfl

/-! ### The fields that an update sets -/

@[simp] theorem State.raise_status (v : FatalEvent) : (s.raise v).status = .fatal v := rfl
@[simp] theorem State.forceX0_x : s.forceX0.x = s.x.set 0 0#32 := rfl
@[simp] theorem State.emit_console (o : List OutEvent) :
    (s.emit o).console = { s.console with output := s.console.output ++ o } := rfl
@[simp] theorem State.count_counters (a b : Nat) :
    (s.count a b).counters =
      { s.counters with cycleCount := s.counters.cycleCount + a, instCount := s.counters.instCount + b } := rfl
@[simp] theorem State.performStore_none : s.performStore none = s := rfl
@[simp] theorem State.performStore_mem_some (st : PendingStore) :
    (s.performStore (some st)).mem = s.mem.writeLE st.addr.toNat st.len st.value := rfl
@[simp] theorem State.consume_none : s.consume none = s := rfl
@[simp] theorem State.logPredictor_none : s.logPredictor none = s := rfl
@[simp] theorem State.logPredictor_log_some (c : PredictorCall) :
    (s.logPredictor (some c)).predictorLog = s.predictorLog ++ [c] := rfl
@[simp] theorem State.emit_nil : s.emit [] = s := by simp [State.emit]
@[simp] theorem State.applyEffects_nothing : s.applyEffects Effects.nothing = s := by
  simp [State.applyEffects, Effects.nothing]
@[simp] theorem State.applyEffects_mem (fx : Effects) : (s.applyEffects fx).mem = (s.performStore fx.store).mem := by
  simp [State.applyEffects]
@[simp] theorem State.writeReg_zero (v : Word) : s.writeReg 0#5 v = s := rfl

/-- The register file after a register write. -/
theorem State.writeReg_x_eq (r : RegIdx) (v : Word) :
    (s.writeReg r v).x = if r = 0#5 then s.x else s.x.set r.toNat v r.isLt := by
  unfold State.writeReg; split <;> rfl

/-- The register file after WriteBack of a record. -/
theorem State.writeBack_x_eq (r : MRec) :
    (s.writeBack r).x = if r.writeReg then (if r.dest = 0#5 then s.x else s.x.set r.dest.toNat r.out r.dest.isLt) else s.x := by
  unfold State.writeBack; split <;> simp [State.writeReg_x_eq]

/-- The register file after the WriteBack stage. -/
theorem State.writeBackStage_x_eq :
    s.writeBackStage.x = (s.m.content.elim s.x (fun r =>
      if r.writeReg then (if r.dest = 0#5 then s.x else s.x.set r.dest.toNat r.out r.dest.isLt) else s.x)) := by
  unfold State.writeBackStage; split <;> simp_all [State.writeBack_x_eq]

/-! ### A completed cycle, and one instruction by itself -/

variable (c : CycleOut)

@[simp] theorem State.complete_f : (s.complete c).f = s.nextF c := rfl
@[simp] theorem State.complete_d : (s.complete c).d = s.nextD c := rfl
@[simp] theorem State.complete_e : (s.complete c).e = s.e.commit c.exe.en := rfl
@[simp] theorem State.complete_m : (s.complete c).m = s.m.commit c.mn := rfl
@[simp] theorem State.complete_fsm : (s.complete c).fsm = s.nextFsm c := rfl
@[simp] theorem State.complete_pc : (s.complete c).pc = choosePC c.fet.pcNext c.exe.ctrl c.redirect := rfl
@[simp] theorem State.complete_status : (s.complete c).status = s.status := by simp [State.complete]
@[simp] theorem State.complete_params : (s.complete c).params = s.params := by simp [State.complete]
@[simp] theorem State.complete_counters : (s.complete c).counters = s.counters.cycle c s.retires (c.dec.env.drawLatencies c.fx.accesses).1 := rfl
@[simp] theorem State.complete_mem : (s.complete c).mem = (s.performStore c.fx.store).mem := by
  simp [State.complete]; cases c.fx.store <;> simp [State.performStore]
@[simp] theorem State.complete_x : (s.complete c).x = s.writeBackStage.x := by
  simp [State.complete, State.writeBackStage_x_eq]

variable (k : Kind) (o : ExOut) (dc : Decoded) (w : MRec) (fx : Effects)

@[simp] theorem State.completeAlone_f : (s.completeAlone k o dc w fx).f = s.f := by simp [State.completeAlone]
@[simp] theorem State.completeAlone_d : (s.completeAlone k o dc w fx).d = s.d := by simp [State.completeAlone]
@[simp] theorem State.completeAlone_e : (s.completeAlone k o dc w fx).e = s.e := by simp [State.completeAlone]
@[simp] theorem State.completeAlone_m : (s.completeAlone k o dc w fx).m = s.m := by simp [State.completeAlone]
@[simp] theorem State.completeAlone_fsm : (s.completeAlone k o dc w fx).fsm = s.fsm := by simp [State.completeAlone]
@[simp] theorem State.completeAlone_status : (s.completeAlone k o dc w fx).status = s.status := by simp [State.completeAlone]
@[simp] theorem State.completeAlone_params : (s.completeAlone k o dc w fx).params = s.params := by simp [State.completeAlone]
@[simp] theorem State.completeAlone_pc : (s.completeAlone k o dc w fx).pc = nextPC o dc.record := rfl
@[simp] theorem State.completeAlone_x : (s.completeAlone k o dc w fx).x = (s.writeBack w).x := by
  simp [State.completeAlone, State.writeBack_x_eq]
@[simp] theorem State.completeAlone_mem : (s.completeAlone k o dc w fx).mem = (s.performStore fx.store).mem := by
  simp [State.completeAlone]; cases fx.store <;> simp [State.performStore]

end Sys2Proof.Machine
end

