-- ==== Sys2Proof/Laws/Cycle.lean ====
section
/-! SUPPORT. What one step can do, said once: every later proof about a step starts from these cases and never unfolds `step`. -/

namespace Sys2Proof.Machine

/-! ### The state after steps 1 and 2 -/

@[simp] theorem State.cycleStart_d (s : State) : s.cycleStart.d = s.d := by simp [State.cycleStart]
@[simp] theorem State.cycleStart_e (s : State) : s.cycleStart.e = s.e := by simp [State.cycleStart]
@[simp] theorem State.cycleStart_m (s : State) : s.cycleStart.m = s.m := by simp [State.cycleStart]
@[simp] theorem State.cycleStart_f (s : State) : s.cycleStart.f = s.restoreOrTick.f := by simp [State.cycleStart]
@[simp] theorem State.cycleStart_pc (s : State) : s.cycleStart.pc = s.restoreOrTick.pc := by simp [State.cycleStart]
@[simp] theorem State.cycleStart_fsm (s : State) : s.cycleStart.fsm = s.restoreOrTick.fsm := by simp [State.cycleStart]
@[simp] theorem State.cycleStart_counters (s : State) : s.cycleStart.counters = s.counters := by simp [State.cycleStart]
@[simp] theorem State.cycleStart_status (s : State) : s.cycleStart.status = s.status := by simp [State.cycleStart]
@[simp] theorem State.cycleStart_console (s : State) : s.cycleStart.console = s.console := by simp [State.cycleStart]
@[simp] theorem State.cycleStart_env (s : State) : s.cycleStart.env = s.env := by simp [State.cycleStart]
@[simp] theorem State.cycleStart_mem (s : State) : s.cycleStart.mem = s.mem := by simp [State.cycleStart]
@[simp] theorem State.cycleStart_params (s : State) : s.cycleStart.params = s.params := by simp [State.cycleStart]
@[simp] theorem State.cycleStart_x (s : State) : s.cycleStart.x = s.x.set 0 0#32 := by simp [State.cycleStart]

/-- Forcing `x0` changes what no read port shows (R31). -/
@[simp] theorem State.forceX0_readReg (s : State) (r : RegIdx) : s.forceX0.readReg r = s.readReg r := by
  unfold State.readReg
  split_ifs with h
  · rfl
  · have h0 : (0 : Nat) ≠ r.toNat := fun h' => h (BitVec.eq_of_toNat_eq (by simpa using h'.symm))
    simp [Vector.getElem_set_ne, h0]

@[simp] theorem State.cycleStart_readReg (s : State) (r : RegIdx) : s.cycleStart.readReg r = s.readReg r := by
  simp only [State.cycleStart, State.forceX0_readReg]
  simp [State.readReg]

/-- A read port is a function of the register file. -/
theorem State.readReg_congr {s t : State} (h : s.x = t.x) (r : RegIdx) : s.readReg r = t.readReg r := by
  simp [State.readReg, h]

/-- A read port after a register write (R31, R33, R34). -/
theorem State.readReg_afterSet (s : State) (q : RegIdx) (v : Word) (r : RegIdx) :
    (s.writeReg q v).readReg r = if r = 0#5 then 0#32 else if r = q then v else s.readReg r := by
  unfold State.readReg State.writeReg
  by_cases hr : r = 0#5
  · simp [hr]
  · by_cases hq : q = 0#5
    · have : r ≠ q := fun h => hr (h.trans hq)
      simp [hr, hq]
    · by_cases h : r = q
      · subst h; simp [hr]
      · have hn : q.toNat ≠ r.toNat := fun h' => h (BitVec.eq_of_toNat_eq h'.symm)
        simp [hr, hq, h, Vector.getElem_set_ne, hn]

/-- The Memory stage has one result. -/
theorem State.MemoryDone.unique {s : State} {mn mn' : Option MRec} {fx fx' : Effects} (h : s.MemoryDone mn fx)
    (h' : s.MemoryDone mn' fx') : mn = mn' ∧ fx = fx' := by
  rcases h with ⟨he, rfl, rfl⟩ | ⟨e, m, he, ha, rfl⟩ <;> rcases h' with ⟨he', rfl, rfl⟩ | ⟨e', m', he', ha', rfl⟩
  · exact ⟨rfl, rfl⟩
  · rw [he] at he'; cases he'
  · rw [he] at he'; cases he'
  · rw [he] at he'; cases he'
    rw [ha] at ha'; cases ha'
    exact ⟨rfl, rfl⟩

/-! ### Pipeline registers -/

/-- A register that is not marked stalled takes its next value (R334). -/
theorem Slot.commit_content {α : Type} {r : Slot α} (next : Option α) (h : r.stall = 0#2) : (r.commit next).content = next := by
  simp [Slot.commit, h]

@[simp] theorem Slot.bubbleIf_content {α : Type} (c : Bool) (r : Slot α) :
    (r.bubbleIf c).content = if c then none else r.content := by
  cases c <;> rfl

/-! ### The cases of a step -/

/-- A running step with the guards passed. -/
theorem State.afterGuards_cases {u t : State} (h : u.afterGuards = .next t) :
    (∃ v printed, u.memoryStage = some (.fatal v printed) ∧ t = u.mergeMemoryFault v printed) ∨
    (u.memoryStage = some .exit ∧ t = u.mergeExit) ∨
    (∃ mn fx, u.MemoryDone mn fx ∧ t = u.merge (u.stages mn fx)) := by
  unfold State.afterGuards at h
  cases hm : u.memoryStage with
  | none =>
    rw [hm] at h
    refine .inr (.inr ⟨none, Effects.nothing, .inl ⟨?_, rfl, rfl⟩, by simpa using h.symm⟩)
    simpa [State.memoryStage] using hm
  | some r =>
    rw [hm] at h
    cases r with
    | stuck f => simp at h
    | fatal v printed => exact .inl ⟨v, printed, rfl, by simpa using h.symm⟩
    | exit => exact .inr (.inl ⟨rfl, by simpa using h.symm⟩)
    | done m fx =>
      refine .inr (.inr ⟨some m, fx, .inr ?_, by simpa using h.symm⟩)
      obtain ⟨e, he, hacc⟩ := Option.map_eq_some_iff.1 hm
      exact ⟨e, m, he, hacc, rfl⟩

/-- Everything that a step to a next state can be: the guard ends the run, the Memory stage faults or exits, or the cycle's
merge is made. -/
theorem step_cases {s t : State} (h : step s = .next t) :
    s.status = .running ∧
    ((s.cycleStart.guardFails = true ∧ t = s.cycleStart.raise (.stackOverflow s.cycleStart.sp)) ∨
     (s.cycleStart.guardFails = false ∧
      ((∃ v printed, s.cycleStart.memoryStage = some (.fatal v printed) ∧ t = s.cycleStart.mergeMemoryFault v printed) ∨
       (s.cycleStart.memoryStage = some .exit ∧ t = s.cycleStart.mergeExit) ∨
       (∃ mn fx, s.cycleStart.MemoryDone mn fx ∧ t = s.cycleStart.merge (s.cycleStart.stages mn fx))))) := by
  unfold step State.cycleIfRunning at h
  cases hs : s.status with
  | exited => rw [hs] at h; simp at h
  | fatal v => rw [hs] at h; simp at h
  | running =>
    rw [hs] at h
    refine ⟨rfl, ?_⟩
    change s.cycle = _ at h
    unfold State.cycle at h
    change (if s.cycleStart.guardFails = true then _ else s.cycleStart.afterGuards) = _ at h
    by_cases hg : s.cycleStart.guardFails = true
    · rw [if_pos hg] at h
      exact .inl ⟨hg, (Host.Outcome.next.inj h).symm⟩
    · rw [if_neg hg] at h
      exact .inr ⟨by simpa using hg, State.afterGuards_cases h⟩

/-- The step of a running state whose guard passes. -/
theorem step_of_running {s : State} (hs : s.status = .running) (hg : s.cycleStart.guardFails = false) :
    step s = s.cycleStart.afterGuards := by
  unfold step State.cycleIfRunning
  rw [hs]
  change s.cycle = _
  unfold State.cycle
  change (if s.cycleStart.guardFails = true then _ else s.cycleStart.afterGuards) = _
  rw [if_neg (by simp [hg])]

/-- The exit's end is no running state. -/
theorem State.exitRun_not_running (s : State) : s.exitRun.status ≠ .running := by
  unfold State.exitRun
  dsimp only
  split <;> simp

/-- A completed cycle: the guard passes, no stage has an event, and the state is that of steps 4 to 8. -/
theorem State.Cycles.cases {s t : State} (h : s.Cycles t) :
    s.status = .running ∧ s.cycleStart.guardFails = false ∧
    ∃ mn fx, s.cycleStart.MemoryDone mn fx ∧ (s.cycleStart.stages mn fx).youngerEvent = none ∧
      t = s.cycleStart.complete (s.cycleStart.stages mn fx) := by
  obtain ⟨hstep, hrun⟩ := h
  obtain ⟨hs, hc⟩ := step_cases hstep
  refine ⟨hs, ?_⟩
  rcases hc with ⟨hg, rfl⟩ | ⟨hg, hc⟩
  · simp at hrun
  · refine ⟨hg, ?_⟩
    rcases hc with ⟨v, printed, -, rfl⟩ | ⟨-, rfl⟩ | ⟨mn, fx, hm, rfl⟩
    · simp [State.mergeMemoryFault] at hrun
    · exact absurd hrun (State.exitRun_not_running _)
    · refine ⟨mn, fx, hm, ?_⟩
      unfold State.merge at hrun ⊢
      cases hy : (s.cycleStart.stages mn fx).youngerEvent with
      | none => simp
      | some v => rw [hy] at hrun; simp at hrun

/-- The same the other way: when the guard passes and no stage has an event, the cycle completes. -/
theorem State.Cycles.intro {s : State} {mn : Option MRec} {fx : Effects} (hs : s.status = .running)
    (hg : s.cycleStart.guardFails = false) (hm : s.cycleStart.MemoryDone mn fx)
    (hy : (s.cycleStart.stages mn fx).youngerEvent = none) :
    s.Cycles (s.cycleStart.complete (s.cycleStart.stages mn fx)) := by
  refine ⟨?_, by simp [hs]⟩
  rw [step_of_running hs hg]
  unfold State.afterGuards State.memoryStage
  rcases hm with ⟨he, rfl, rfl⟩ | ⟨e, m, he, ha, rfl⟩
  · rw [he]; simp [State.merge, hy]
  · rw [he]; simp [ha, State.merge, hy]

/-- No event of the younger stages: Execute, Decode and Fetch have none. -/
theorem CycleOut.youngerEvent_eq_none {c : CycleOut} :
    c.youngerEvent = none ↔ c.exe.event = none ∧ c.dec.event = none ∧ c.fet.event = none := by
  unfold CycleOut.youngerEvent
  cases c.exe.event <;> cases c.dec.event <;> simp

end Sys2Proof.Machine
end

