-- ==== Sys2Proof/Laws/Encoding.lean ====
section
/-! SUPPORT. The fields of an encoded word (R111): each field that the decoder extracts is the one that the encoder put there. -/

namespace Sys2Proof

/-! ### I format -/

@[simp] theorem opcodeOf_encodeI (a : BitVec 12) (r : RegIdx) (f : BitVec 3) (d : RegIdx) (o : BitVec 7) : opcodeOf (encodeI a r f d o) = o := by
  apply BitVec.eq_of_getLsbD_eq; intro i hi; interval_cases i <;> simp [opcodeOf, encodeI, putField]
@[simp] theorem rdOf_encodeI (a : BitVec 12) (r : RegIdx) (f : BitVec 3) (d : RegIdx) (o : BitVec 7) : rdOf (encodeI a r f d o) = d := by
  apply BitVec.eq_of_getLsbD_eq; intro i hi; interval_cases i <;> simp [rdOf, encodeI, putField]
@[simp] theorem funct3Of_encodeI (a : BitVec 12) (r : RegIdx) (f : BitVec 3) (d : RegIdx) (o : BitVec 7) : funct3Of (encodeI a r f d o) = f := by
  apply BitVec.eq_of_getLsbD_eq; intro i hi; interval_cases i <;> simp [funct3Of, encodeI, putField]
@[simp] theorem rs1Of_encodeI (a : BitVec 12) (r : RegIdx) (f : BitVec 3) (d : RegIdx) (o : BitVec 7) : rs1Of (encodeI a r f d o) = r := by
  apply BitVec.eq_of_getLsbD_eq; intro i hi; interval_cases i <;> simp [rs1Of, encodeI, putField]
@[simp] theorem iFieldOf_encodeI (a : BitVec 12) (r : RegIdx) (f : BitVec 3) (d : RegIdx) (o : BitVec 7) : iFieldOf (encodeI a r f d o) = a := by
  apply BitVec.eq_of_getLsbD_eq; intro i hi; interval_cases i <;> simp [iFieldOf, encodeI, putField]

/-! ### R format -/

@[simp] theorem opcodeOf_encodeR (a : BitVec 7) (b r : RegIdx) (f : BitVec 3) (d : RegIdx) (o : BitVec 7) : opcodeOf (encodeR a b r f d o) = o := by
  apply BitVec.eq_of_getLsbD_eq; intro i hi; interval_cases i <;> simp [opcodeOf, encodeR, putField]
@[simp] theorem rdOf_encodeR (a : BitVec 7) (b r : RegIdx) (f : BitVec 3) (d : RegIdx) (o : BitVec 7) : rdOf (encodeR a b r f d o) = d := by
  apply BitVec.eq_of_getLsbD_eq; intro i hi; interval_cases i <;> simp [rdOf, encodeR, putField]
@[simp] theorem funct3Of_encodeR (a : BitVec 7) (b r : RegIdx) (f : BitVec 3) (d : RegIdx) (o : BitVec 7) : funct3Of (encodeR a b r f d o) = f := by
  apply BitVec.eq_of_getLsbD_eq; intro i hi; interval_cases i <;> simp [funct3Of, encodeR, putField]
@[simp] theorem rs1Of_encodeR (a : BitVec 7) (b r : RegIdx) (f : BitVec 3) (d : RegIdx) (o : BitVec 7) : rs1Of (encodeR a b r f d o) = r := by
  apply BitVec.eq_of_getLsbD_eq; intro i hi; interval_cases i <;> simp [rs1Of, encodeR, putField]
@[simp] theorem rs2Of_encodeR (a : BitVec 7) (b r : RegIdx) (f : BitVec 3) (d : RegIdx) (o : BitVec 7) : rs2Of (encodeR a b r f d o) = b := by
  apply BitVec.eq_of_getLsbD_eq; intro i hi; interval_cases i <;> simp [rs2Of, encodeR, putField]
@[simp] theorem funct7Of_encodeR (a : BitVec 7) (b r : RegIdx) (f : BitVec 3) (d : RegIdx) (o : BitVec 7) : funct7Of (encodeR a b r f d o) = a := by
  apply BitVec.eq_of_getLsbD_eq; intro i hi; interval_cases i <;> simp [funct7Of, encodeR, putField]

/-! ### R4 format -/

@[simp] theorem opcodeOf_encodeR4 (a b r : RegIdx) (f : BitVec 3) (d : RegIdx) (o : BitVec 7) : opcodeOf (encodeR4 a b r f d o) = o := by
  apply BitVec.eq_of_getLsbD_eq; intro i hi; interval_cases i <;> simp [opcodeOf, encodeR4, putField]
@[simp] theorem rdOf_encodeR4 (a b r : RegIdx) (f : BitVec 3) (d : RegIdx) (o : BitVec 7) : rdOf (encodeR4 a b r f d o) = d := by
  apply BitVec.eq_of_getLsbD_eq; intro i hi; interval_cases i <;> simp [rdOf, encodeR4, putField]
@[simp] theorem funct3Of_encodeR4 (a b r : RegIdx) (f : BitVec 3) (d : RegIdx) (o : BitVec 7) : funct3Of (encodeR4 a b r f d o) = f := by
  apply BitVec.eq_of_getLsbD_eq; intro i hi; interval_cases i <;> simp [funct3Of, encodeR4, putField]
@[simp] theorem rs1Of_encodeR4 (a b r : RegIdx) (f : BitVec 3) (d : RegIdx) (o : BitVec 7) : rs1Of (encodeR4 a b r f d o) = r := by
  apply BitVec.eq_of_getLsbD_eq; intro i hi; interval_cases i <;> simp [rs1Of, encodeR4, putField]
@[simp] theorem rs2Of_encodeR4 (a b r : RegIdx) (f : BitVec 3) (d : RegIdx) (o : BitVec 7) : rs2Of (encodeR4 a b r f d o) = b := by
  apply BitVec.eq_of_getLsbD_eq; intro i hi; interval_cases i <;> simp [rs2Of, encodeR4, putField]
@[simp] theorem rs3Of_encodeR4 (a b r : RegIdx) (f : BitVec 3) (d : RegIdx) (o : BitVec 7) : rs3Of (encodeR4 a b r f d o) = a := by
  apply BitVec.eq_of_getLsbD_eq; intro i hi; interval_cases i <;> simp [rs3Of, encodeR4, putField]
@[simp] theorem fmtOf_encodeR4 (a b r : RegIdx) (f : BitVec 3) (d : RegIdx) (o : BitVec 7) : fmtOf (encodeR4 a b r f d o) = 0b00#2 := by
  apply BitVec.eq_of_getLsbD_eq; intro i hi; interval_cases i <;> simp [fmtOf, encodeR4, putField]

/-! ### S format -/

@[simp] theorem opcodeOf_encodeS (a : BitVec 12) (b r : RegIdx) (f : BitVec 3) (o : BitVec 7) : opcodeOf (encodeS a b r f o) = o := by
  apply BitVec.eq_of_getLsbD_eq; intro i hi; interval_cases i <;> simp [opcodeOf, encodeS, putField]
@[simp] theorem funct3Of_encodeS (a : BitVec 12) (b r : RegIdx) (f : BitVec 3) (o : BitVec 7) : funct3Of (encodeS a b r f o) = f := by
  apply BitVec.eq_of_getLsbD_eq; intro i hi; interval_cases i <;> simp [funct3Of, encodeS, putField]
@[simp] theorem rs1Of_encodeS (a : BitVec 12) (b r : RegIdx) (f : BitVec 3) (o : BitVec 7) : rs1Of (encodeS a b r f o) = r := by
  apply BitVec.eq_of_getLsbD_eq; intro i hi; interval_cases i <;> simp [rs1Of, encodeS, putField]
@[simp] theorem rs2Of_encodeS (a : BitVec 12) (b r : RegIdx) (f : BitVec 3) (o : BitVec 7) : rs2Of (encodeS a b r f o) = b := by
  apply BitVec.eq_of_getLsbD_eq; intro i hi; interval_cases i <;> simp [rs2Of, encodeS, putField]
@[simp] theorem sFieldOf_encodeS (a : BitVec 12) (b r : RegIdx) (f : BitVec 3) (o : BitVec 7) : sFieldOf (encodeS a b r f o) = a := by
  apply BitVec.eq_of_getLsbD_eq; intro i hi; interval_cases i <;> simp [sFieldOf, encodeS, putField]

/-! ### B format -/

@[simp] theorem opcodeOf_encodeB (a : BitVec 12) (b r : RegIdx) (f : BitVec 3) (o : BitVec 7) : opcodeOf (encodeB a b r f o) = o := by
  apply BitVec.eq_of_getLsbD_eq; intro i hi; interval_cases i <;> simp [opcodeOf, encodeB, putField]
@[simp] theorem funct3Of_encodeB (a : BitVec 12) (b r : RegIdx) (f : BitVec 3) (o : BitVec 7) : funct3Of (encodeB a b r f o) = f := by
  apply BitVec.eq_of_getLsbD_eq; intro i hi; interval_cases i <;> simp [funct3Of, encodeB, putField]
@[simp] theorem rs1Of_encodeB (a : BitVec 12) (b r : RegIdx) (f : BitVec 3) (o : BitVec 7) : rs1Of (encodeB a b r f o) = r := by
  apply BitVec.eq_of_getLsbD_eq; intro i hi; interval_cases i <;> simp [rs1Of, encodeB, putField]
@[simp] theorem rs2Of_encodeB (a : BitVec 12) (b r : RegIdx) (f : BitVec 3) (o : BitVec 7) : rs2Of (encodeB a b r f o) = b := by
  apply BitVec.eq_of_getLsbD_eq; intro i hi; interval_cases i <;> simp [rs2Of, encodeB, putField]
@[simp] theorem bFieldOf_encodeB (a : BitVec 12) (b r : RegIdx) (f : BitVec 3) (o : BitVec 7) : bFieldOf (encodeB a b r f o) = a := by
  apply BitVec.eq_of_getLsbD_eq; intro i hi; interval_cases i <;> simp [bFieldOf, encodeB, putField]

/-! ### U format -/

@[simp] theorem opcodeOf_encodeU (a : BitVec 20) (d : RegIdx) (o : BitVec 7) : opcodeOf (encodeU a d o) = o := by
  apply BitVec.eq_of_getLsbD_eq; intro i hi; interval_cases i <;> simp [opcodeOf, encodeU, putField]
@[simp] theorem rdOf_encodeU (a : BitVec 20) (d : RegIdx) (o : BitVec 7) : rdOf (encodeU a d o) = d := by
  apply BitVec.eq_of_getLsbD_eq; intro i hi; interval_cases i <;> simp [rdOf, encodeU, putField]
@[simp] theorem uFieldOf_encodeU (a : BitVec 20) (d : RegIdx) (o : BitVec 7) : uFieldOf (encodeU a d o) = a := by
  apply BitVec.eq_of_getLsbD_eq; intro i hi; interval_cases i <;> simp [uFieldOf, encodeU, putField]

/-! ### J format -/

@[simp] theorem opcodeOf_encodeJ (a : BitVec 20) (d : RegIdx) (o : BitVec 7) : opcodeOf (encodeJ a d o) = o := by
  apply BitVec.eq_of_getLsbD_eq; intro i hi; interval_cases i <;> simp [opcodeOf, encodeJ, putField]
@[simp] theorem rdOf_encodeJ (a : BitVec 20) (d : RegIdx) (o : BitVec 7) : rdOf (encodeJ a d o) = d := by
  apply BitVec.eq_of_getLsbD_eq; intro i hi; interval_cases i <;> simp [rdOf, encodeJ, putField]
@[simp] theorem jFieldOf_encodeJ (a : BitVec 20) (d : RegIdx) (o : BitVec 7) : jFieldOf (encodeJ a d o) = a := by
  apply BitVec.eq_of_getLsbD_eq; intro i hi; interval_cases i <;> simp [jFieldOf, encodeJ, putField]

/-! ### The rows of R130 -/

/-- The bits that the mask of a row of format I keeps. -/
theorem encodeI_and_mask (a : BitVec 12) (r : RegIdx) (f : BitVec 3) (d : RegIdx) (o : BitVec 7) : encodeI a r f d o &&& 0x0000707F#32 = putField 32 f 12 ||| putField 32 o 0 := by
  apply BitVec.eq_of_getLsbD_eq; intro i hi
  interval_cases i <;> simp [encodeI, putField]

/-- The bits that the mask of a row of format S keeps. -/
theorem encodeS_and_mask (a : BitVec 12) (b r : RegIdx) (f : BitVec 3) (o : BitVec 7) : encodeS a b r f o &&& 0x0000707F#32 = putField 32 f 12 ||| putField 32 o 0 := by
  apply BitVec.eq_of_getLsbD_eq; intro i hi
  interval_cases i <;> simp [encodeS, putField]

/-- The bits that the mask of a row of format B keeps. -/
theorem encodeB_and_mask (a : BitVec 12) (b r : RegIdx) (f : BitVec 3) (o : BitVec 7) : encodeB a b r f o &&& 0x0000707F#32 = putField 32 f 12 ||| putField 32 o 0 := by
  apply BitVec.eq_of_getLsbD_eq; intro i hi
  interval_cases i <;> simp [encodeB, putField]

/-- The bits that the mask of a row of format R keeps. -/
theorem encodeR_and_mask (a : BitVec 7) (b r : RegIdx) (f : BitVec 3) (d : RegIdx) (o : BitVec 7) : encodeR a b r f d o &&& 0xFE00707F#32 = putField 32 a 25 ||| putField 32 f 12 ||| putField 32 o 0 := by
  apply BitVec.eq_of_getLsbD_eq; intro i hi
  interval_cases i <;> simp [encodeR, putField]

/-- The bits that the mask of a row of format R4 keeps. -/
theorem encodeR4_and_mask (a b r : RegIdx) (f : BitVec 3) (d : RegIdx) (o : BitVec 7) : encodeR4 a b r f d o &&& 0x0600007F#32 = putField 32 o 0 := by
  apply BitVec.eq_of_getLsbD_eq; intro i hi
  interval_cases i <;> simp [encodeR4, putField]

/-- The bits that the mask of a row of format U keeps. -/
theorem encodeU_and_mask (a : BitVec 20) (d : RegIdx) (o : BitVec 7) : encodeU a d o &&& 0x0000007F#32 = putField 32 o 0 := by
  apply BitVec.eq_of_getLsbD_eq; intro i hi
  interval_cases i <;> simp [encodeU, putField]

/-- The bits that the mask of a row of format J keeps. -/
theorem encodeJ_and_mask (a : BitVec 20) (d : RegIdx) (o : BitVec 7) : encodeJ a d o &&& 0x0000007F#32 = putField 32 o 0 := by
  apply BitVec.eq_of_getLsbD_eq; intro i hi
  interval_cases i <;> simp [encodeJ, putField]

end Sys2Proof
end

