-- ==== Sys2Proof/Laws/Exec.lean ====
section
/-! SUPPORT. What one instruction run by itself does, once per shape of its Execute rule: an ALU result, an event, a branch, a
jump, a load, a store. Proofs about a meaning cite these and never unfold `runAlone`. -/

namespace Sys2Proof.Machine

/-- Every meaning is the shared run of its instruction with its kind's Execute rule, the one that the pipeline uses. -/
theorem exec_eq (i : Instr) (s : State) : exec i s = runAlone i (executeKind i.kind) s := by
  cases i <;> rfl

variable {i : Instr} {ex : Params → DRec → ExOut} {s : State}

/-- The decoded record of an instruction that is no branch: the snapshot, and no draw. -/
theorem State.decodeInstr_plain (hb : i.kind.isBranch = false) (pc inst : Word) :
    s.decodeInstr pc inst i = { record := s.snapshot pc inst i, env := s.env, call := none } := by
  simp [State.decodeInstr, hb]

@[simp] theorem State.snapshot_pc (pc inst : Word) : (s.snapshot pc inst i).pc = pc := rfl
@[simp] theorem State.snapshot_kind (pc inst : Word) : (s.snapshot pc inst i).kind = .real i.kind := rfl
@[simp] theorem State.snapshot_op1 (pc inst : Word) : (s.snapshot pc inst i).op1 = s.readReg i.rs1 := rfl
@[simp] theorem State.snapshot_op2 (pc inst : Word) : (s.snapshot pc inst i).op2 = s.readReg i.rs2 := rfl
@[simp] theorem State.snapshot_op3 (pc inst : Word) : (s.snapshot pc inst i).op3 = s.readReg i.rs3 := rfl
@[simp] theorem State.snapshot_imm (pc inst : Word) : (s.snapshot pc inst i).imm = i.imm := rfl
@[simp] theorem State.snapshot_dest (pc inst : Word) : (s.snapshot pc inst i).dest = i.dest := rfl
@[simp] theorem State.snapshot_predictedBranch (pc inst : Word) : (s.snapshot pc inst i).predictedBranch = false := rfl
@[simp] theorem State.snapshot_predictedNext (pc inst : Word) : (s.snapshot pc inst i).predictedNext = pc + 4#32 := rfl

/-- Fetch goes on at the predicted target after a branch predicted taken, else at the following word (R338). -/
theorem DRec.predicted_predictedNext (d : DRec) (answer : Bool) :
    (d.predicted answer).predictedNext = if answer then d.pc + d.imm else d.pc + 4#32 := rfl

/-- An instruction whose rule gives an ALU result writes it and advances. -/
theorem runAlone_alu {v : Word} (hb : i.kind.isBranch = false) (hk : i.kind ≠ .ecall)
    (hv : ex s.params (s.snapshot s.pc (encode i) i) = ExOut.alu v) :
    runAlone i ex s = .next (s.afterWrite i.dest v (mulPenalty i.kind)) := by
  unfold runAlone
  rw [State.decodeInstr_plain hb]
  simp only [hv]
  simp [ExOut.alu, ExOut.empty, ExOut.record, State.memoryAccess, hk, ERec.passOn, Effects.nothing, State.completeAlone,
    Env.drawLatencies, ExOut.update, State.applyEffects, State.writeBack, State.afterWrite, State.advance, nextPC,
    DRec.predictedNext,
    Counters.instruction, ExOut.hits, ExOut.misses]

/-- An instruction whose rule raises an event ends the run and does nothing else. -/
theorem runAlone_raise {v : FatalEvent} (hb : i.kind.isBranch = false)
    (hv : ex s.params (s.snapshot s.pc (encode i) i) = ExOut.raise v) :
    runAlone i ex s = .next (s.raise v) := by
  unfold runAlone
  rw [State.decodeInstr_plain hb]
  simp only [hv]
  simp [ExOut.raise]

/-- A jump writes its link and goes to its target. -/
theorem runAlone_jump {target : Word} (hb : i.kind.isBranch = false) (hk : i.kind ≠ .ecall) (hp : i.kind.isMulPenalty = false)
    (hv : ex s.params (s.snapshot s.pc (encode i) i) = ExOut.jump (s.snapshot s.pc (encode i) i) target) :
    runAlone i ex s = .next (s.afterJump i.dest target) := by
  unfold runAlone
  rw [State.decodeInstr_plain hb]
  simp only [hv]
  simp [ExOut.jump, ExOut.empty, ExOut.record, State.memoryAccess, hk, ERec.passOn, Effects.nothing, State.completeAlone,
    Env.drawLatencies, ExOut.update, State.applyEffects, State.writeBack, State.afterJump, nextPC, mulPenalty, hp,
    Counters.instruction, ExOut.hits, ExOut.misses, DRec.link]

/-- A branch goes where its condition says, whatever the predictor answered. -/
theorem runAlone_branch {taken : Bool} (hb : i.kind.isBranch = true) (hk : i.kind ≠ .ecall) (hp : i.kind.isMulPenalty = false)
    (hv : ∀ d : DRec, d.op1 = s.readReg i.rs1 → d.op2 = s.readReg i.rs2 → ex s.params d = ExOut.branch d taken) :
    runAlone i ex s = .next (s.afterBranch i.kind i.rs1 i.rs2 i.imm taken) := by
  unfold runAlone
  have hd : s.decodeInstr s.pc (encode i) i =
      { record := (s.snapshot s.pc (encode i) i).predicted s.env.drawAnswer.1, env := s.env.drawAnswer.2,
        call := some (.predict s.pc i.kind (s.readReg i.rs1) (s.readReg i.rs2) i.imm s.env.drawAnswer.1) } := by
    simp [State.decodeInstr, hb]
  rw [hd]
  dsimp only
  rw [hv _ rfl rfl]
  cases ha : s.env.drawAnswer with
  | mk b env' =>
    cases b <;> cases taken <;>
      simp [ExOut.branch, ExOut.empty, ExOut.record, State.memoryAccess, hk, ERec.passOn, Effects.nothing,
        State.completeAlone, Env.drawLatencies, ExOut.update, State.applyEffects, State.writeBack, State.afterBranch, nextPC,
        DRec.predictedNext,
        mulPenalty, hp, Counters.instruction, ExOut.hits, ExOut.misses, DRec.predicted, State.logPredictor, State.emit, ha]

/-- A load whose access is performed writes the extended value and draws one latency. -/
theorem runAlone_load {n : BitVec 3} {sg : Bool} (hb : i.kind.isBranch = false) (hp : i.kind.isMulPenalty = false)
    (hv : ex s.params (s.snapshot s.pc (encode i) i) = ExOut.load (s.snapshot s.pc (encode i) i) n sg)
    (hok : accessOk s.params (s.readReg i.rs1 + i.imm) n.toNat = true) :
    runAlone i ex s = .next ((s.afterWrite i.dest
      (extendLoad (s.mem.readLE (s.readReg i.rs1 + i.imm).toNat n.toNat) n.toNat sg) 0).afterLatency 1) := by
  unfold runAlone
  rw [State.decodeInstr_plain hb]
  simp only [hv]
  simp [ExOut.load, ExOut.empty, ExOut.record, State.memoryAccess, State.loadAccess, State.memRead, DRec.effectiveAddress, hok,
    ERec.passOn, Effects.nothing, State.completeAlone, ExOut.update, State.applyEffects, State.writeBack, State.afterWrite,
    State.advance, State.afterLatency, nextPC, DRec.predictedNext, mulPenalty, hp, Counters.instruction, ExOut.hits, ExOut.misses]
  unfold State.writeReg
  split <;> rfl

/-- A load whose access is not performed raises MemoryFault. -/
theorem runAlone_load_fault {n : BitVec 3} {sg : Bool} (hb : i.kind.isBranch = false)
    (hv : ex s.params (s.snapshot s.pc (encode i) i) = ExOut.load (s.snapshot s.pc (encode i) i) n sg)
    (hok : accessOk s.params (s.readReg i.rs1 + i.imm) n.toNat = false) :
    runAlone i ex s = .next (s.raise (.memoryFault (s.readReg i.rs1 + i.imm) n.toNat .load)) := by
  unfold runAlone
  rw [State.decodeInstr_plain hb]
  simp only [hv]
  simp [ExOut.load, ExOut.empty, ExOut.record, State.memoryAccess, State.loadAccess, State.memRead, DRec.effectiveAddress, hok]

/-- A store whose access is performed writes its bytes and draws one latency. -/
theorem runAlone_store {n : BitVec 3} (hb : i.kind.isBranch = false) (hp : i.kind.isMulPenalty = false)
    (hv : ex s.params (s.snapshot s.pc (encode i) i) = ExOut.store (s.snapshot s.pc (encode i) i) n)
    (hok : accessOk s.params (s.readReg i.rs1 + i.imm) n.toNat = true) :
    runAlone i ex s = .next (({ s with
      mem := s.mem.writeLE (s.readReg i.rs1 + i.imm).toNat n.toNat (s.readReg i.rs2) }.advance 0).afterLatency 1) := by
  unfold runAlone
  rw [State.decodeInstr_plain hb]
  simp only [hv]
  simp [ExOut.store, ExOut.empty, ExOut.record, State.memoryAccess, State.storeAccess, DRec.effectiveAddress, hok,
    ERec.passOn, Effects.nothing, State.completeAlone, ExOut.update, State.applyEffects, State.writeBack, State.performStore,
    State.advance, State.afterLatency, nextPC, DRec.predictedNext, mulPenalty, hp, Counters.instruction, ExOut.hits, ExOut.misses]

/-- A store whose access is not performed raises MemoryFault. -/
theorem runAlone_store_fault {n : BitVec 3} (hb : i.kind.isBranch = false)
    (hv : ex s.params (s.snapshot s.pc (encode i) i) = ExOut.store (s.snapshot s.pc (encode i) i) n)
    (hok : accessOk s.params (s.readReg i.rs1 + i.imm) n.toNat = false) :
    runAlone i ex s = .next (s.raise (.memoryFault (s.readReg i.rs1 + i.imm) n.toNat .store)) := by
  unfold runAlone
  rw [State.decodeInstr_plain hb]
  simp only [hv]
  simp [ExOut.store, ExOut.empty, ExOut.record, State.memoryAccess, State.storeAccess, DRec.effectiveAddress, hok]

end Sys2Proof.Machine
end

