-- ==== Sys2Proof/Laws/Memory.lean ====
section
/-! SUPPORT. The laws of the byte memory: a read after a write, and that every memory operation keeps the canonical form. -/

namespace Sys2Proof.Machine

/-! ### The canonical form -/

@[simp] theorem Memory.wf_nil : Memory.wf [] = true := rfl

/-- A list whose addresses start higher is canonical from any lower bound. -/
theorem Memory.wfFrom_mono {lo hi : Nat} {m : Memory} (h : lo ≤ hi) (hm : Memory.wfFrom hi m = true) :
    Memory.wfFrom lo m = true := by
  cases m with
  | nil => rfl
  | cons c rest =>
    obtain ⟨k, b⟩ := c
    simp only [Memory.wfFrom, Bool.and_eq_true, decide_eq_true_eq] at hm ⊢
    exact ⟨⟨⟨by omega, hm.1.1.2⟩, hm.1.2⟩, hm.2⟩

/-- A byte below the first listed address reads as the unlisted one. -/
theorem Memory.read_below {lo : Nat} {m : Memory} (hm : Memory.wfFrom lo m = true) {a : Nat} (h : a < lo) :
    m.read a = Memory.unlisted := by
  induction m generalizing lo with
  | nil => rfl
  | cons c rest ih =>
    obtain ⟨k, b⟩ := c
    simp only [Memory.wfFrom, Bool.and_eq_true, decide_eq_true_eq] at hm
    have hk : a ≠ k := by omega
    simp only [Memory.read, hk, if_false]
    exact ih hm.2 (by omega)

/-- A write keeps the canonical form. -/
theorem Memory.wfFrom_write {lo : Nat} {m : Memory} (hm : Memory.wfFrom lo m = true) {a : Nat} (v : Byte)
    (h : lo ≤ a) (ha : a < 2 ^ 32) : Memory.wfFrom lo (m.write a v) = true := by
  induction m generalizing lo with
  | nil =>
    by_cases hv : v = Memory.unlisted <;> simp [Memory.write, Memory.wfFrom, hv, h]
    simpa using ha
  | cons c rest ih =>
    obtain ⟨k, b⟩ := c
    have hm' := hm
    simp only [Memory.wfFrom, Bool.and_eq_true, decide_eq_true_eq] at hm
    obtain ⟨⟨⟨hlo, hk⟩, hb⟩, hrest⟩ := hm
    unfold Memory.write
    split_ifs with h1 h2 h3 h4
    · exact hm'
    · simp only [Memory.wfFrom, Bool.and_eq_true, decide_eq_true_eq]
      exact ⟨⟨⟨h, ha⟩, by simpa using h2⟩, ⟨⟨by omega, hk⟩, hb⟩, hrest⟩
    · exact Memory.wfFrom_mono (by omega) hrest
    · simp only [Memory.wfFrom, Bool.and_eq_true, decide_eq_true_eq]
      exact ⟨⟨⟨h, ha⟩, by simpa using h4⟩, by rw [h3]; exact hrest⟩
    · simp only [Memory.wfFrom, Bool.and_eq_true, decide_eq_true_eq]
      exact ⟨⟨⟨hlo, hk⟩, hb⟩, ih hrest (by omega)⟩

theorem Memory.wf_write {m : Memory} (hm : m.wf = true) {a : Nat} (v : Byte) (ha : a < 2 ^ 32) :
    (m.write a v).wf = true := Memory.wfFrom_write hm v (Nat.zero_le a) ha

/-- A write of `n` bytes keeps the canonical form. -/
theorem Memory.wf_writeLE {m : Memory} (hm : m.wf = true) {a n : Nat} (v : Word) (ha : a + n ≤ 2 ^ 32) :
    (m.writeLE a n v).wf = true := by
  induction n generalizing m a v with
  | zero => exact hm
  | succ n ih => exact ih (Memory.wf_write hm _ (by omega)) _ (by omega)

/-! ### Reading after writing -/

/-- A byte read after a byte written, in a canonical memory. -/
theorem Memory.read_write_from {lo : Nat} {m : Memory} (hm : Memory.wfFrom lo m = true) (a b : Nat) (v : Byte) :
    (m.write a v).read b = if b = a then v else m.read b := by
  induction m generalizing lo with
  | nil => by_cases hv : v = Memory.unlisted <;> by_cases hb : b = a <;> simp [Memory.write, Memory.read, hv, hb]
  | cons c rest ih =>
    obtain ⟨k, w⟩ := c
    simp only [Memory.wfFrom, Bool.and_eq_true, decide_eq_true_eq] at hm
    obtain ⟨⟨⟨hlo, hk⟩, hb⟩, hrest⟩ := hm
    by_cases h1 : a < k
    · by_cases hba : b = a
      · have hbk : a ≠ k := by omega
        by_cases h2 : v = Memory.unlisted
        · simp [Memory.write, Memory.read, h1, h2, hba, hbk]
          exact Memory.read_below hrest (by omega)
        · simp [Memory.write, Memory.read, h1, h2, hba]
      · by_cases h2 : v = Memory.unlisted <;> simp [Memory.write, Memory.read, h1, h2, hba]
    · by_cases h3 : a = k
      · subst h3
        by_cases hba : b = a
        · by_cases h2 : v = Memory.unlisted
          · simp [Memory.write, h2, hba]
            exact Memory.read_below hrest (by omega)
          · simp [Memory.write, Memory.read, h2, hba]
        · by_cases h2 : v = Memory.unlisted <;> simp [Memory.write, Memory.read, h2, hba]
      · have hr := ih hrest
        by_cases hbk : b = k
        · simp [Memory.write, Memory.read, h1, h3, hbk, Ne.symm h3]
        · simp [Memory.write, Memory.read, h1, h3, hbk, hr]

theorem Memory.read_write {m : Memory} (hm : m.wf = true) (a b : Nat) (v : Byte) :
    (m.write a v).read b = if b = a then v else m.read b := Memory.read_write_from hm a b v

end Sys2Proof.Machine
end

