-- ==== Sys2Proof/Laws/MemoryStage.lean ====
section
/-! SUPPORT. What the Memory stage can do with a record, said once: proofs about an access or a system call that ends without an
event start from these cases. -/

namespace Sys2Proof.Machine

variable {s : State} {e : ERec} {m : MRec} {fx : Effects}

/-- A system call that ends without an event: what it hands on and what it does to the console (R243 to R248). -/
theorem State.systemCall_done (h : s.systemCall e = .done m fx) :
    fx.store = none ∧
    ((e.op2 = 0#32 ∧ m = e.passOn ∧ fx.consumed = none ∧ s.printString e.op1 = .ended fx.output fx.accesses) ∨
     (e.op2 = 1#32 ∧ m = e.passOn ∧ fx = { Effects.nothing with output := [.char (e.op1.setWidth 8)] }) ∨
     (e.op2 = 2#32 ∧ m = e.passOn ∧ fx = { Effects.nothing with output := [.int e.op1.toInt] }) ∨
     (∃ c rest, e.op2 = 4#32 ∧ s.env.chars = c :: rest ∧ m = { e.passOn with out := c.setWidth 32 } ∧
        fx = { Effects.nothing with consumed := some (.char c) }) ∨
     (∃ n rest, e.op2 = 5#32 ∧ s.env.ints = n :: rest ∧ m = { e.passOn with out := n } ∧
        fx = { Effects.nothing with consumed := some (.int n) })) := by
  unfold State.systemCall at h
  split_ifs at h with h0 h1 h2 h3 h4 h5
  · unfold State.callPrintString at h
    split at h
    · obtain ⟨rfl, rfl⟩ := MemResult.done.inj h
      exact ⟨rfl, .inl ⟨h0, rfl, rfl, ‹_›⟩⟩
    · simp at h
    · simp at h
  · obtain ⟨rfl, rfl⟩ := MemResult.done.inj h
    exact ⟨rfl, .inr (.inl ⟨h1, rfl, rfl⟩)⟩
  · obtain ⟨rfl, rfl⟩ := MemResult.done.inj h
    exact ⟨rfl, .inr (.inr (.inl ⟨h2, rfl, rfl⟩))⟩
  · unfold State.callReadChar at h
    split at h
    · obtain ⟨rfl, rfl⟩ := MemResult.done.inj h
      exact ⟨rfl, .inr (.inr (.inr (.inl ⟨_, _, h4, ‹_›, rfl, rfl⟩)))⟩
    · simp at h
  · unfold State.callReadInt at h
    split at h
    · obtain ⟨rfl, rfl⟩ := MemResult.done.inj h
      exact ⟨rfl, .inr (.inr (.inr (.inr ⟨_, _, h5, ‹_›, rfl, rfl⟩)))⟩
    · simp at h

/-- A record that ends without an event is a load, a store, a system call or none of them (R327). -/
theorem State.memoryAccess_done (h : s.memoryAccess e = .done m fx) :
    (e.readMem = true ∧ accessOk s.params e.out e.memLen.toNat = true ∧
      m = { e.passOn with out := extendLoad (s.mem.readLE e.out.toNat e.memLen.toNat) e.memLen.toNat e.signExt } ∧
      fx = { Effects.nothing with accesses := 1 }) ∨
    (e.readMem = false ∧ e.writeMem = true ∧ accessOk s.params e.out e.memLen.toNat = true ∧ m = e.passOn ∧
      fx = { Effects.nothing with
        store := some { addr := e.out, len := e.memLen.toNat, value := e.op2 }, accesses := 1 }) ∨
    (e.readMem = false ∧ e.writeMem = false ∧ e.kind = .ecall ∧ s.systemCall e = .done m fx) ∨
    (e.readMem = false ∧ e.writeMem = false ∧ e.kind ≠ .ecall ∧ m = e.passOn ∧ fx = Effects.nothing) := by
  unfold State.memoryAccess at h
  split_ifs at h with hr hw hk
  · unfold State.loadAccess State.memRead at h
    split_ifs at h with hok
    · obtain ⟨rfl, rfl⟩ := MemResult.done.inj h
      exact .inl ⟨hr, hok, rfl, rfl⟩
  · unfold State.storeAccess at h
    split_ifs at h with hok
    · obtain ⟨rfl, rfl⟩ := MemResult.done.inj h
      exact .inr (.inl ⟨by simpa using hr, hw, hok, rfl, rfl⟩)
  · exact .inr (.inr (.inl ⟨by simpa using hr, by simpa using hw, hk, h⟩))
  · obtain ⟨rfl, rfl⟩ := MemResult.done.inj h
    exact .inr (.inr (.inr ⟨by simpa using hr, by simpa using hw, hk, rfl, rfl⟩))

/-- Whatever the Memory stage does, the record goes on with its address, kind, destination and class (R327). -/
theorem State.memoryAccess_keeps (h : s.memoryAccess e = .done m fx) :
    m.pc = e.pc ∧ m.kind = e.kind ∧ m.dest = e.dest ∧ m.writeReg = e.writeReg ∧ m.loadClass = e.loadClass := by
  rcases State.memoryAccess_done h with ⟨-, -, rfl, -⟩ | ⟨-, -, -, rfl, -⟩ | ⟨-, -, -, hc⟩ | ⟨-, -, -, rfl, -⟩
  · exact ⟨rfl, rfl, rfl, rfl, rfl⟩
  · exact ⟨rfl, rfl, rfl, rfl, rfl⟩
  · rcases (State.systemCall_done hc).2 with ⟨-, rfl, -⟩ | ⟨-, rfl, -⟩ | ⟨-, rfl, -⟩ | ⟨_, _, -, -, rfl, -⟩ | ⟨_, _, -, -, rfl, -⟩ <;>
      exact ⟨rfl, rfl, rfl, rfl, rfl⟩
  · exact ⟨rfl, rfl, rfl, rfl, rfl⟩

end Sys2Proof.Machine
end

