-- ==== Sys2Proof/Laws/PerInstr.lean ====
section
/-! SUPPORT. The per-instruction family RowMatch: the word of an instruction belongs to its kind's row of R130. -/

namespace Sys2Proof.Laws.RowMatch

/-- The word of `i` agrees with the match value of its kind's row on the row's mask (R120, R130). -/
def Statement (i : Instr) : Prop := encode i &&& i.kind.rowMask = i.kind.rowMatch

theorem lui (rd : RegIdx) (imm20 : BitVec 20) : Statement (.lui rd imm20) :=
  (encodeU_and_mask ..).trans rfl
theorem auipc (rd : RegIdx) (imm20 : BitVec 20) : Statement (.auipc rd imm20) :=
  (encodeU_and_mask ..).trans rfl
theorem jal (rd : RegIdx) (off20 : BitVec 20) : Statement (.jal rd off20) :=
  (encodeJ_and_mask ..).trans rfl
theorem jalr (rd rs1 : RegIdx) (imm12 : BitVec 12) : Statement (.jalr rd rs1 imm12) :=
  (encodeI_and_mask ..).trans rfl
theorem beq (rs1 rs2 : RegIdx) (off12 : BitVec 12) : Statement (.beq rs1 rs2 off12) :=
  (encodeB_and_mask ..).trans rfl
theorem bne (rs1 rs2 : RegIdx) (off12 : BitVec 12) : Statement (.bne rs1 rs2 off12) :=
  (encodeB_and_mask ..).trans rfl
theorem blt (rs1 rs2 : RegIdx) (off12 : BitVec 12) : Statement (.blt rs1 rs2 off12) :=
  (encodeB_and_mask ..).trans rfl
theorem bge (rs1 rs2 : RegIdx) (off12 : BitVec 12) : Statement (.bge rs1 rs2 off12) :=
  (encodeB_and_mask ..).trans rfl
theorem bltu (rs1 rs2 : RegIdx) (off12 : BitVec 12) : Statement (.bltu rs1 rs2 off12) :=
  (encodeB_and_mask ..).trans rfl
theorem bgeu (rs1 rs2 : RegIdx) (off12 : BitVec 12) : Statement (.bgeu rs1 rs2 off12) :=
  (encodeB_and_mask ..).trans rfl
theorem lb (rd rs1 : RegIdx) (imm12 : BitVec 12) : Statement (.lb rd rs1 imm12) :=
  (encodeI_and_mask ..).trans rfl
theorem lh (rd rs1 : RegIdx) (imm12 : BitVec 12) : Statement (.lh rd rs1 imm12) :=
  (encodeI_and_mask ..).trans rfl
theorem lw (rd rs1 : RegIdx) (imm12 : BitVec 12) : Statement (.lw rd rs1 imm12) :=
  (encodeI_and_mask ..).trans rfl
theorem lbu (rd rs1 : RegIdx) (imm12 : BitVec 12) : Statement (.lbu rd rs1 imm12) :=
  (encodeI_and_mask ..).trans rfl
theorem lhu (rd rs1 : RegIdx) (imm12 : BitVec 12) : Statement (.lhu rd rs1 imm12) :=
  (encodeI_and_mask ..).trans rfl
theorem sb (rs1 rs2 : RegIdx) (imm12 : BitVec 12) : Statement (.sb rs1 rs2 imm12) :=
  (encodeS_and_mask ..).trans rfl
theorem sh (rs1 rs2 : RegIdx) (imm12 : BitVec 12) : Statement (.sh rs1 rs2 imm12) :=
  (encodeS_and_mask ..).trans rfl
theorem sw (rs1 rs2 : RegIdx) (imm12 : BitVec 12) : Statement (.sw rs1 rs2 imm12) :=
  (encodeS_and_mask ..).trans rfl
theorem addi (rd rs1 : RegIdx) (imm12 : BitVec 12) : Statement (.addi rd rs1 imm12) :=
  (encodeI_and_mask ..).trans rfl
theorem slti (rd rs1 : RegIdx) (imm12 : BitVec 12) : Statement (.slti rd rs1 imm12) :=
  (encodeI_and_mask ..).trans rfl
theorem sltiu (rd rs1 : RegIdx) (imm12 : BitVec 12) : Statement (.sltiu rd rs1 imm12) :=
  (encodeI_and_mask ..).trans rfl
theorem xori (rd rs1 : RegIdx) (imm12 : BitVec 12) : Statement (.xori rd rs1 imm12) :=
  (encodeI_and_mask ..).trans rfl
theorem ori (rd rs1 : RegIdx) (imm12 : BitVec 12) : Statement (.ori rd rs1 imm12) :=
  (encodeI_and_mask ..).trans rfl
theorem andi (rd rs1 : RegIdx) (imm12 : BitVec 12) : Statement (.andi rd rs1 imm12) :=
  (encodeI_and_mask ..).trans rfl
theorem slli (rd rs1 : RegIdx) (shamt : BitVec 5) : Statement (.slli rd rs1 shamt) :=
  (encodeR_and_mask ..).trans rfl
theorem srli (rd rs1 : RegIdx) (shamt : BitVec 5) : Statement (.srli rd rs1 shamt) :=
  (encodeR_and_mask ..).trans rfl
theorem srai (rd rs1 : RegIdx) (shamt : BitVec 5) : Statement (.srai rd rs1 shamt) :=
  (encodeR_and_mask ..).trans rfl
theorem add (rd rs1 rs2 : RegIdx) : Statement (.add rd rs1 rs2) :=
  (encodeR_and_mask ..).trans rfl
theorem sub (rd rs1 rs2 : RegIdx) : Statement (.sub rd rs1 rs2) :=
  (encodeR_and_mask ..).trans rfl
theorem sll (rd rs1 rs2 : RegIdx) : Statement (.sll rd rs1 rs2) :=
  (encodeR_and_mask ..).trans rfl
theorem slt (rd rs1 rs2 : RegIdx) : Statement (.slt rd rs1 rs2) :=
  (encodeR_and_mask ..).trans rfl
theorem sltu (rd rs1 rs2 : RegIdx) : Statement (.sltu rd rs1 rs2) :=
  (encodeR_and_mask ..).trans rfl
theorem xor (rd rs1 rs2 : RegIdx) : Statement (.xor rd rs1 rs2) :=
  (encodeR_and_mask ..).trans rfl
theorem srl (rd rs1 rs2 : RegIdx) : Statement (.srl rd rs1 rs2) :=
  (encodeR_and_mask ..).trans rfl
theorem sra (rd rs1 rs2 : RegIdx) : Statement (.sra rd rs1 rs2) :=
  (encodeR_and_mask ..).trans rfl
theorem or (rd rs1 rs2 : RegIdx) : Statement (.or rd rs1 rs2) :=
  (encodeR_and_mask ..).trans rfl
theorem and (rd rs1 rs2 : RegIdx) : Statement (.and rd rs1 rs2) :=
  (encodeR_and_mask ..).trans rfl
theorem ecall : Statement .ecall :=
  by unfold Statement; decide
theorem fmadd (rd rs1 rs2 rs3 : RegIdx) (rm : BitVec 3) : Statement (.fmadd rd rs1 rs2 rs3 rm) :=
  (encodeR4_and_mask ..).trans rfl
theorem fmsub (rd rs1 rs2 rs3 : RegIdx) (rm : BitVec 3) : Statement (.fmsub rd rs1 rs2 rs3 rm) :=
  (encodeR4_and_mask ..).trans rfl
theorem fnmsub (rd rs1 rs2 rs3 : RegIdx) (rm : BitVec 3) : Statement (.fnmsub rd rs1 rs2 rs3 rm) :=
  (encodeR4_and_mask ..).trans rfl
theorem fnmadd (rd rs1 rs2 rs3 : RegIdx) (rm : BitVec 3) : Statement (.fnmadd rd rs1 rs2 rs3 rm) :=
  (encodeR4_and_mask ..).trans rfl
theorem mul (rd rs1 rs2 : RegIdx) : Statement (.mul rd rs1 rs2) :=
  (encodeR_and_mask ..).trans rfl
theorem mulh (rd rs1 rs2 : RegIdx) : Statement (.mulh rd rs1 rs2) :=
  (encodeR_and_mask ..).trans rfl
theorem div (rd rs1 rs2 : RegIdx) : Statement (.div rd rs1 rs2) :=
  (encodeR_and_mask ..).trans rfl
theorem rem (rd rs1 rs2 : RegIdx) : Statement (.rem rd rs1 rs2) :=
  (encodeR_and_mask ..).trans rfl
theorem mulhsu (rd rs1 rs2 : RegIdx) : Statement (.mulhsu rd rs1 rs2) :=
  (encodeR_and_mask ..).trans rfl
theorem mulhu (rd rs1 rs2 : RegIdx) : Statement (.mulhu rd rs1 rs2) :=
  (encodeR_and_mask ..).trans rfl
theorem divu (rd rs1 rs2 : RegIdx) : Statement (.divu rd rs1 rs2) :=
  (encodeR_and_mask ..).trans rfl
theorem remu (rd rs1 rs2 : RegIdx) : Statement (.remu rd rs1 rs2) :=
  (encodeR_and_mask ..).trans rfl

end Sys2Proof.Laws.RowMatch
end

