-- ==== Sys2Proof/Tests/Slice0.lean ====
section
/-! SUPPORT. The model's own tests. Expected values are those of spec/95_test_vectors.md, or worked by hand from the rule named;
a witness shows a state that meets every hypothesis of a statement. -/

namespace Sys2Proof.Tests

open Sys2Proof Sys2Proof.Machine

/-! ## Well-formedness: the four kinds that Core4 lacks are refused (R125) -/

theorem test_illFormed_mulhsu : (Instr.mulhsu 5#5 6#5 7#5).wellFormed .core4 = false := by decide
theorem test_illFormed_mulhu : (Instr.mulhu 5#5 6#5 7#5).wellFormed .core4 = false := by decide
theorem test_illFormed_divu : (Instr.divu 5#5 6#5 7#5).wellFormed .core4 = false := by decide
theorem test_illFormed_remu : (Instr.remu 5#5 6#5 7#5).wellFormed .core4 = false := by decide
theorem test_wellFormed_full8 : (Instr.remu 5#5 6#5 7#5).wellFormed .full8 = true := by decide

/-! ## Decoding: words of spec/95_test_vectors.md §2 -/

theorem test_decode_addi : decode .core4 0x00A00293#32 = .ok (.addi 5#5 0#5 10#12) := by decide
theorem test_decode_slti : decode .core4 0x80022193#32 = .ok (.slti 3#5 4#5 2048#12) := by decide
theorem test_decode_sltiu : decode .core4 0x7FF23193#32 = .ok (.sltiu 3#5 4#5 2047#12) := by decide
theorem test_decode_xori : decode .core4 0xFFF34313#32 = .ok (.xori 6#5 6#5 4095#12) := by decide
theorem test_decode_ori : decode .core4 0x55546393#32 = .ok (.ori 7#5 8#5 1365#12) := by decide
theorem test_decode_andi : decode .core4 0x0FF57493#32 = .ok (.andi 9#5 10#5 255#12) := by decide
theorem test_decode_slli : decode .core4 0x01F61593#32 = .ok (.slli 11#5 12#5 31#5) := by decide
theorem test_decode_srli : decode .core4 0x00165593#32 = .ok (.srli 11#5 12#5 1#5) := by decide
theorem test_decode_srai : decode .core4 0x41F65593#32 = .ok (.srai 11#5 12#5 31#5) := by decide
theorem test_decode_add : decode .core4 0x007302B3#32 = .ok (.add 5#5 6#5 7#5) := by decide
theorem test_decode_sub : decode .core4 0x407302B3#32 = .ok (.sub 5#5 6#5 7#5) := by decide
theorem test_decode_sll : decode .core4 0x003110B3#32 = .ok (.sll 1#5 2#5 3#5) := by decide
theorem test_decode_slt : decode .core4 0x003120B3#32 = .ok (.slt 1#5 2#5 3#5) := by decide
theorem test_decode_sltu : decode .core4 0x003130B3#32 = .ok (.sltu 1#5 2#5 3#5) := by decide
theorem test_decode_xor : decode .core4 0x003140B3#32 = .ok (.xor 1#5 2#5 3#5) := by decide
theorem test_decode_srl : decode .core4 0x003150B3#32 = .ok (.srl 1#5 2#5 3#5) := by decide
theorem test_decode_sra : decode .core4 0x403150B3#32 = .ok (.sra 1#5 2#5 3#5) := by decide
theorem test_decode_or : decode .core4 0x003160B3#32 = .ok (.or 1#5 2#5 3#5) := by decide
theorem test_decode_and : decode .core4 0x003170B3#32 = .ok (.and 1#5 2#5 3#5) := by decide
theorem test_decode_lb : decode .core4 0xFFF10283#32 = .ok (.lb 5#5 2#5 4095#12) := by decide
theorem test_decode_lh : decode .core4 0x00211283#32 = .ok (.lh 5#5 2#5 2#12) := by decide
theorem test_decode_lw : decode .core4 0x00002283#32 = .ok (.lw 5#5 0#5 0#12) := by decide
theorem test_decode_lbu : decode .core4 0x7FFFC283#32 = .ok (.lbu 5#5 31#5 2047#12) := by decide
theorem test_decode_lhu : decode .core4 0x800FD283#32 = .ok (.lhu 5#5 31#5 2048#12) := by decide
theorem test_decode_sb : decode .core4 0xFE510FA3#32 = .ok (.sb 2#5 5#5 4095#12) := by decide
theorem test_decode_sh : decode .core4 0x7E511F23#32 = .ok (.sh 2#5 5#5 2046#12) := by decide
theorem test_decode_sw : decode .core4 0x00702023#32 = .ok (.sw 0#5 7#5 0#12) := by decide
theorem test_decode_beq : decode .core4 0x00000463#32 = .ok (.beq 0#5 0#5 4#12) := by decide
theorem test_decode_bne : decode .core4 0xFE209EE3#32 = .ok (.bne 1#5 2#5 4094#12) := by decide
theorem test_decode_blt : decode .core4 0x7E41CFE3#32 = .ok (.blt 3#5 4#5 2047#12) := by decide
theorem test_decode_bge : decode .core4 0x8041D063#32 = .ok (.bge 3#5 4#5 2048#12) := by decide
theorem test_decode_bltu : decode .core4 0x0062E163#32 = .ok (.bltu 5#5 6#5 1#12) := by decide
theorem test_decode_bgeu : decode .core4 0x0062F0E3#32 = .ok (.bgeu 5#5 6#5 1024#12) := by decide
theorem test_decode_jal : decode .core4 0x001000EF#32 = .ok (.jal 1#5 1024#20) := by decide
theorem test_decode_jalr : decode .core4 0x00008067#32 = .ok (.jalr 0#5 1#5 0#12) := by decide
theorem test_decode_lui : decode .core4 0xFFFFF2B7#32 = .ok (.lui 5#5 1048575#20) := by decide
theorem test_decode_auipc : decode .core4 0x80000297#32 = .ok (.auipc 5#5 524288#20) := by decide
theorem test_decode_ecall : decode .core4 0x00000073#32 = .ok (.ecall) := by decide
theorem test_decode_mul : decode .core4 0x027302B3#32 = .ok (.mul 5#5 6#5 7#5) := by decide
theorem test_decode_mulh : decode .core4 0x027312B3#32 = .ok (.mulh 5#5 6#5 7#5) := by decide
theorem test_decode_div : decode .core4 0x027342B3#32 = .ok (.div 5#5 6#5 7#5) := by decide
theorem test_decode_rem : decode .core4 0x027362B3#32 = .ok (.rem 5#5 6#5 7#5) := by decide
theorem test_decode_fmadd : decode .core4 0x407372C3#32 = .ok (.fmadd 5#5 6#5 7#5 8#5 7#3) := by decide
theorem test_decode_fmsub : decode .core4 0xF87372C7#32 = .ok (.fmsub 5#5 6#5 7#5 31#5 7#3) := by decide
theorem test_decode_fnmsub : decode .core4 0x203170CB#32 = .ok (.fnmsub 1#5 2#5 3#5 4#5 7#3) := by decide
theorem test_decode_fnmadd : decode .core4 0xE1DF7FCF#32 = .ok (.fnmadd 31#5 30#5 29#5 28#5 7#3) := by decide
theorem test_decode_mulhsu : decode .full8 0x027322B3#32 = .ok (.mulhsu 5#5 6#5 7#5) := by decide
theorem test_decode_mulhu : decode .full8 0x027332B3#32 = .ok (.mulhu 5#5 6#5 7#5) := by decide
theorem test_decode_divu : decode .full8 0x027352B3#32 = .ok (.divu 5#5 6#5 7#5) := by decide
theorem test_decode_remu : decode .full8 0x027372B3#32 = .ok (.remu 5#5 6#5 7#5) := by decide

theorem test_reject_compressed_0 :
    [0x00000000#32, 0x00000001#32, 0x0000FFFE#32].all (fun w => decide (decode .core4 w = .error .compressed)) = true := by decide
theorem test_reject_unrecognized_0 :
    [0xFFFFFFFF#32, 0x00100073#32, 0x10500073#32, 0x30200073#32, 0x00001073#32, 0x34011073#32, 0x0000000F#32, 0x0FF0000F#32, 0x0000100F#32, 0x40001013#32, 0x02001013#32, 0x42005293#32].all (fun w => decide (decode .core4 w = .error .unrecognized)) = true := by decide
theorem test_reject_unrecognized_1 :
    [0x40001033#32, 0x40007033#32, 0x04000033#32, 0x027322B3#32, 0x027332B3#32, 0x027352B3#32, 0x027372B3#32, 0x00003003#32, 0x00006003#32, 0x00007003#32, 0x00003023#32, 0x00004023#32].all (fun w => decide (decode .core4 w = .error .unrecognized)) = true := by decide
theorem test_reject_unrecognized_2 :
    [0x00002063#32, 0x00003063#32, 0x00001067#32, 0x427302C3#32, 0x467302CF#32, 0x00000007#32, 0x00000053#32, 0x0000002F#32, 0x0000001B#32, 0x0000005B#32, 0x0000007F#32].all (fun w => decide (decode .core4 w = .error .unrecognized)) = true := by decide

/-- The row FMADD with another `rm` (R128). -/
theorem test_decode_rm_ignored : decode .core4 0x407302C3#32 = .ok (.fmadd 5#5 6#5 7#5 8#5 0#3) := by decide

theorem test_decode_jal_negative : decode .core4 0x800000EF#32 = .ok (.jal 1#5 0x80000#20) := by decide

/-! ## Helpers -/

/-- After reset, with `x5`, `x6`, `x7` set. -/
def regs (a b c : Word) : State := ((State.reset.writeReg 5#5 a).writeReg 6#5 b).writeReg 7#5 c

/-- After reset, at another address. -/
def at_ (pc : Word) : State := { State.reset with pc := pc }

/-- Register `r` of a next state. -/
def regAfter (o : Host.Outcome State Fault Refusal) (r : RegIdx) : Option Word :=
  match o with
  | .next t => some (t.readReg r)
  | _ => none

/-- A view of a next state. -/
def after {α : Type} (o : Host.Outcome State Fault Refusal) (f : State → α) : Option α :=
  match o with
  | .next t => some (f t)
  | _ => none

/-- The fault of a stop. -/
def faultOf (o : Host.Outcome State Fault Refusal) : Option Fault :=
  match o with
  | .fault v => some v
  | _ => none

/-- The next state, or the same one. -/
def nextOf (s : State) : State :=
  match step s with
  | .next t => t
  | _ => s

/-- The step has a next state and the run goes on. -/
def cyclesB (s : State) : Bool :=
  match step s with
  | .next t => t.status == .running
  | _ => false

theorem cycles_of {s : State} (h : cyclesB s = true) : s.Cycles (nextOf s) := by
  unfold cyclesB at h
  unfold nextOf State.Cycles
  cases hs : step s with
  | next t => rw [hs] at h; exact ⟨rfl, by simpa using h⟩
  | fault v => rw [hs] at h; simp at h
  | refused v => rw [hs] at h; simp at h

theorem next_of {t : State} {o : Host.Outcome State Fault Refusal} (h : after o (fun u => decide (u = t)) = some true) :
    o = .next t := by
  cases o with
  | next u => simpa [after] using h
  | fault v => simp [after] at h
  | refused v => simp [after] at h

/-- Bytes of words at an address. -/
def words (m : Memory) (a : Nat) : List Word → Memory
  | [] => m
  | w :: ws => words (m.writeLE a 4 w) (a + 4) ws

/-! ## The integer kinds: rows of spec/95_test_vectors.md §3 -/

theorem test_add : regAfter (exec (.add 8#5 5#5 6#5) (regs 0x7FFFFFFF#32 0x00000001#32 0x00000000#32)) 8#5 = some 0x80000000#32 := by decide
theorem test_sub : regAfter (exec (.sub 8#5 5#5 6#5) (regs 0x80000000#32 0x00000001#32 0x00000000#32)) 8#5 = some 0x7FFFFFFF#32 := by decide
theorem test_sll : regAfter (exec (.sll 8#5 5#5 6#5) (regs 0x00000001#32 0x00000020#32 0x00000000#32)) 8#5 = some 0x00000001#32 := by decide
theorem test_slt : regAfter (exec (.slt 8#5 5#5 6#5) (regs 0x00000001#32 0xFFFFFFFF#32 0x00000000#32)) 8#5 = some 0x00000000#32 := by decide
theorem test_sltu : regAfter (exec (.sltu 8#5 5#5 6#5) (regs 0x00000000#32 0x00000001#32 0x00000000#32)) 8#5 = some 0x00000001#32 := by decide
theorem test_xor : regAfter (exec (.xor 8#5 5#5 6#5) (regs 0x12345678#32 0x12345678#32 0x00000000#32)) 8#5 = some 0x00000000#32 := by decide
theorem test_srl : regAfter (exec (.srl 8#5 5#5 6#5) (regs 0x80000000#32 0x0000003F#32 0x00000000#32)) 8#5 = some 0x00000001#32 := by decide
theorem test_sra : regAfter (exec (.sra 8#5 5#5 6#5) (regs 0x80000000#32 0x00000001#32 0x00000000#32)) 8#5 = some 0xC0000000#32 := by decide
theorem test_or : regAfter (exec (.or 8#5 5#5 6#5) (regs 0xF0F0F0F0#32 0x0F0F0F0F#32 0x00000000#32)) 8#5 = some 0xFFFFFFFF#32 := by decide
theorem test_and : regAfter (exec (.and 8#5 5#5 6#5) (regs 0xF0F0F0F0#32 0xFF00FF00#32 0x00000000#32)) 8#5 = some 0xF000F000#32 := by decide
theorem test_addi : regAfter (exec (.addi 8#5 5#5 1#12) (regs 0x7FFFFFFF#32 0x00000000#32 0x00000000#32)) 8#5 = some 0x80000000#32 := by decide
theorem test_slti : regAfter (exec (.slti 8#5 5#5 4095#12) (regs 0x00000000#32 0x00000000#32 0x00000000#32)) 8#5 = some 0x00000000#32 := by decide
theorem test_sltiu : regAfter (exec (.sltiu 8#5 5#5 4095#12) (regs 0x00000005#32 0x00000000#32 0x00000000#32)) 8#5 = some 0x00000001#32 := by decide
theorem test_xori : regAfter (exec (.xori 8#5 5#5 15#12) (regs 0x000000FF#32 0x00000000#32 0x00000000#32)) 8#5 = some 0x000000F0#32 := by decide
theorem test_ori : regAfter (exec (.ori 8#5 5#5 2048#12) (regs 0x12340000#32 0x00000000#32 0x00000000#32)) 8#5 = some 0xFFFFF800#32 := by decide
theorem test_andi : regAfter (exec (.andi 8#5 5#5 4080#12) (regs 0x12345678#32 0x00000000#32 0x00000000#32)) 8#5 = some 0x12345670#32 := by decide
theorem test_slli : regAfter (exec (.slli 8#5 5#5 0#5) (regs 0xFFFFFFFF#32 0x00000000#32 0x00000000#32)) 8#5 = some 0xFFFFFFFF#32 := by decide
theorem test_srli : regAfter (exec (.srli 8#5 5#5 31#5) (regs 0x80000000#32 0x00000000#32 0x00000000#32)) 8#5 = some 0x00000001#32 := by decide
theorem test_srai : regAfter (exec (.srai 8#5 5#5 30#5) (regs 0x40000000#32 0x00000000#32 0x00000000#32)) 8#5 = some 0x00000001#32 := by decide
theorem test_lui : regAfter (exec (.lui 8#5 1#20) (regs 0x00000000#32 0x00000000#32 0x00000000#32)) 8#5 = some 0x00001000#32 := by decide
theorem test_auipc : regAfter (exec (.auipc 8#5 524288#20) (at_ 0x00000400#32)) 8#5 = some 0x80000400#32 := by decide
theorem test_mul : regAfter (exec (.mul 8#5 5#5 6#5) (regs 0xFFFFFFFF#32 0xFFFFFFFF#32 0x00000000#32)) 8#5 = some 0x00000001#32 := by decide
theorem test_mulh : regAfter (exec (.mulh 8#5 5#5 6#5) (regs 0x80000000#32 0x80000000#32 0x00000000#32)) 8#5 = some 0x40000000#32 := by decide
theorem test_div : regAfter (exec (.div 8#5 5#5 6#5) (regs 0xFFFFFFEC#32 0x00000006#32 0x00000000#32)) 8#5 = some 0xFFFFFFFD#32 := by decide
theorem test_rem : regAfter (exec (.rem 8#5 5#5 6#5) (regs 0xFFFFFFEC#32 0x00000006#32 0x00000000#32)) 8#5 = some 0xFFFFFFFE#32 := by decide
theorem test_mulhsu : regAfter (exec (.mulhsu 8#5 5#5 6#5) (regs 0x80000000#32 0xFFFFFFFF#32 0x00000000#32)) 8#5 = some 0x80000000#32 := by decide
theorem test_mulhu : regAfter (exec (.mulhu 8#5 5#5 6#5) (regs 0x80000000#32 0x00000002#32 0x00000000#32)) 8#5 = some 0x00000001#32 := by decide
theorem test_divu : regAfter (exec (.divu 8#5 5#5 6#5) (regs 0xFFFFFFFF#32 0x00000002#32 0x00000000#32)) 8#5 = some 0x7FFFFFFF#32 := by decide
theorem test_remu : regAfter (exec (.remu 8#5 5#5 6#5) (regs 0xFFFFFFFF#32 0x00000010#32 0x00000000#32)) 8#5 = some 0x0000000F#32 := by decide
theorem test_fmadd : regAfter (exec (.fmadd 8#5 5#5 6#5 7#5 7#3) (regs 0x00010000#32 0x00010000#32 0x00000001#32)) 8#5 = some 0x00000001#32 := by decide
theorem test_fmsub : regAfter (exec (.fmsub 8#5 5#5 6#5 7#5 7#3) (regs 0x80000000#32 0x00000002#32 0x00000001#32)) 8#5 = some 0xFFFFFFFF#32 := by decide
theorem test_fnmsub : regAfter (exec (.fnmsub 8#5 5#5 6#5 7#5 7#3) (regs 0xFFFFFFFF#32 0x00000001#32 0x00000000#32)) 8#5 = some 0x00000001#32 := by decide
theorem test_fnmadd : regAfter (exec (.fnmadd 8#5 5#5 6#5 7#5 7#3) (regs 0x00000000#32 0x00000000#32 0x00000000#32)) 8#5 = some 0x00000000#32 := by decide

/-- `x0` is not written (R34). -/
theorem test_addi_x0 : regAfter (exec (.addi 0#5 5#5 1#12) (regs 7#32 0#32 0#32)) 0#5 = some 0#32 := by decide
/-- A source that is also the destination is read before the write (R153). -/
theorem test_add_same : regAfter (exec (.add 5#5 5#5 5#5) (regs 7#32 0#32 0#32)) 5#5 = some 14#32 := by decide
/-- A division by zero raises under the default (R280). -/
theorem test_div_zero : after (exec (.div 8#5 5#5 6#5) (regs 7#32 0#32 0#32)) (·.status) =
    some (.fatal (.divideFault .div 7#32 0#32)) := by decide
/-- A multiply adds 3 cycles, a division none (R279). -/
theorem test_mul_penalty : after (exec (.mul 8#5 5#5 6#5) (regs 6#32 7#32 0#32)) (·.counters.cycleCount) = some 3 := by decide
theorem test_div_noPenalty : after (exec (.div 8#5 5#5 6#5) (regs 20#32 6#32 0#32)) (·.counters.cycleCount) = some 0 := by
  decide

/-! ## Loads and stores: rows of spec/95_test_vectors.md §4 -/

/-- The data of §4 at 0x100, no latency reported. -/
def dataState : State :=
  { State.reset with
    mem := words [] 0x100 [0x017FFF80#32, 0x89ABCDEF#32]
    env := { Env.empty with latencies := [0, 0, 0, 0, 0, 0, 0, 0] } }

theorem test_lb : regAfter (exec (.lb 5#5 0#5 256#12) dataState) 5#5 = some 0xFFFFFF80#32 := by decide
theorem test_lbu : regAfter (exec (.lbu 5#5 0#5 259#12) dataState) 5#5 = some 0x00000001#32 := by decide
theorem test_lh : regAfter (exec (.lh 5#5 0#5 256#12) dataState) 5#5 = some 0xFFFFFF80#32 := by decide
theorem test_lhu : regAfter (exec (.lhu 5#5 0#5 262#12) dataState) 5#5 = some 0x000089AB#32 := by decide
theorem test_lw : regAfter (exec (.lw 5#5 0#5 260#12) dataState) 5#5 = some 0x89ABCDEF#32 := by decide
theorem test_lw_misaligned : after (exec (.lw 5#5 0#5 258#12) dataState) (·.status) =
    some (.fatal (.memoryFault 258#32 4 .load)) := by decide
theorem test_lw_byteWise : regAfter (exec (.lw 5#5 0#5 258#12)
    { dataState with params := { Params.default with misaligned := .byteWise } }) 5#5 = some 0xCDEF017F#32 := by decide

/-- `x6 = 0x12345678` with no latency reported. -/
def storeState : State :=
  { regs 0#32 0x12345678#32 0#32 with env := { Env.empty with latencies := [0, 0] } }

theorem test_sb : after (exec (.sb 0#5 6#5 512#12) storeState) (·.mem) = some [(0x200, 0x78#8)] := by decide
theorem test_sh : after (exec (.sh 0#5 6#5 514#12) storeState) (·.mem) = some [(0x202, 0x78#8), (0x203, 0x56#8)] := by decide
theorem test_sw : after (exec (.sw 0#5 6#5 512#12) storeState) (·.mem) =
    some [(0x200, 0x78#8), (0x201, 0x56#8), (0x202, 0x34#8), (0x203, 0x12#8)] := by decide
theorem test_sh_misaligned : after (exec (.sh 0#5 6#5 513#12) storeState) (fun t => (t.status, t.mem)) =
    some (.fatal (.memoryFault 513#32 2 .store), []) := by decide
/-- Storing the unlisted byte takes the entry away: the canonical form. -/
theorem test_sb_zero : after (exec (.sb 0#5 0#5 512#12) { storeState with mem := [(0x200, 1#8)] }) (·.mem) = some [] := by
  decide

/-! ## Branches and jumps: rows of spec/95_test_vectors.md §4 -/

/-- `x5` and `x6` set at 0x400, with the predictor's answer queued. -/
def branchState (a b : Word) (answer : Bool) : State :=
  { regs a b 0#32 with env := { Env.empty with answers := [answer] } }

/-- Where a branch goes, and its counters: control hazards, hits, misses. -/
def branchView (o : Host.Outcome State Fault Refusal) : Option (Word × Nat × Nat × Nat) :=
  after o (fun t => (t.pc, t.counters.controlHazardCount, t.counters.branchHit, t.counters.branchMiss))

theorem test_beq : branchView (exec (.beq 5#5 6#5 4#12) (branchState 5#32 5#32 false)) = some (0x408#32, 1, 0, 1) := by decide
theorem test_bne : branchView (exec (.bne 5#5 6#5 4#12) (branchState 5#32 5#32 true)) = some (0x404#32, 1, 0, 1) := by decide
theorem test_blt : branchView (exec (.blt 5#5 6#5 4#12) (branchState 0xFFFFFFFF#32 1#32 true)) = some (0x408#32, 0, 1, 0) := by
  decide
theorem test_bge : branchView (exec (.bge 5#5 6#5 4#12) (branchState 0x7FFFFFFF#32 0x80000000#32 false)) =
    some (0x408#32, 1, 0, 1) := by decide
theorem test_bltu : branchView (exec (.bltu 5#5 6#5 4#12) (branchState 0xFFFFFFFF#32 1#32 false)) =
    some (0x404#32, 0, 1, 0) := by decide
theorem test_bgeu : branchView (exec (.bgeu 5#5 6#5 4#12) (branchState 0xFFFFFFFF#32 1#32 true)) =
    some (0x408#32, 0, 1, 0) := by decide
theorem test_jal : after (exec (.jal 1#5 4#20) State.reset) (fun t => (t.pc, t.readReg 1#5)) = some (0x408#32, 0x404#32) := by
  decide
theorem test_jalr_clears_bit_0 : after (exec (.jalr 1#5 5#5 0#12) (regs 0x40D#32 0#32 0#32)) (fun t => (t.pc, t.readReg 1#5)) =
    some (0x40C#32, 0x404#32) := by decide

/-! ## System calls: rows of spec/95_test_vectors.md §4 -/

/-- Argument in `x10`, call number in `x17`, "OKi" and a newline at 0x100, the inputs of §4 supplied. -/
def callState (a n : Word) : State :=
  { (State.reset.writeReg 10#5 a).writeReg 17#5 n with
    mem := words [] 0x100 [0x0A694B4F#32]
    env := { Env.empty with chars := [0x7A#8], ints := [0xFFFFFFF9#32], latencies := [0, 0, 0, 0, 0, 0] } }

theorem test_ecall_string : after (exec .ecall (callState 0x100#32 0#32)) (·.console.output) =
    some [.char 0x4F#8, .char 0x4B#8, .char 0x69#8, .char 0x0A#8] := by decide
theorem test_ecall_int : after (exec .ecall (callState 0xFFFFFFD6#32 2#32)) (·.console.output) = some [.int (-42)] := by decide
theorem test_ecall_char : after (exec .ecall (callState 0x141#32 1#32)) (·.console.output) = some [.char 0x41#8] := by decide
theorem test_ecall_read : regAfter (exec .ecall (callState 0#32 4#32)) 10#5 = some 0x7A#32 := by decide
theorem test_ecall_readInt : regAfter (exec .ecall (callState 0#32 5#32)) 10#5 = some 0xFFFFFFF9#32 := by decide
theorem test_ecall_exit : after (exec .ecall (callState 0#32 93#32)) (·.status) = some .exited := by decide
theorem test_ecall_unknown : after (exec .ecall (callState 0#32 6#32)) (·.status) = some (.fatal (.unknownSyscall 6#32)) := by
  decide
theorem test_ecall_waits : faultOf (exec .ecall { callState 0#32 4#32 with env := Env.empty }) = some .awaitingConsoleInput := by
  decide

/-! ## Cycles: single steps of the traces of spec/95_test_vectors.md §6 -/

/-- The record that the decoder makes of a word at an address in a state. -/
def decoded (s : State) (pc w : Word) : Slot DRec := ⟨(s.decodeRecord ⟨pc, w, none⟩).dn, 0#2⟩

/-- The Execute record of a word at an address in a state. -/
def executed (s : State) (pc w : Word) : Slot ERec :=
  ⟨(s.decodeRecord ⟨pc, w, none⟩).dn.bind (fun d => (executeRecord s.params d).en), 0#2⟩

/-- Trace 2 at the start of cycle 3: `lw x5, 256(x0)` in `D`, `addi x6, x5, 1` in `F`, fetching at 0x408. -/
def loadUse : State :=
  { State.reset with
    mem := words (words [] 0x100 [41#32]) 0x400 [0x10002283#32, 0x00128313#32, 0x00300393#32, 0x05D00893#32, 0x00000073#32]
    pc := 0x408#32
    f := ⟨some ⟨0x404#32, 0x00128313#32, none⟩, 0#2⟩
    d := decoded State.reset 0x400#32 0x10002283#32
    env := { Env.empty with latencies := [0, 0, 0, 0] } }

/-- Cycle 3 of trace 2 claims 2 cycles of class Memory: D and F become bubbles, the load goes to E (R356, R371). -/
theorem test_trace2_claim : after (step loadUse) (fun t => (t.pc, t.e.content.map (·.pc), t.fsm.countdown, t.fsm.restorePC)) =
    some (0x40C#32, some 0x400#32, 2#2, 0x408#32) := by decide
theorem test_trace2_bubbles : after (step loadUse) (fun t => (t.f.content.isNone, t.d.content.isNone,
    t.counters.memoryHazardCount)) = some (true, true, 1) := by decide

/-- Trace 1 at the start of cycle 3: `addi x5, x0, 1` in `D` and `addi x6, x5, 1` in `F`, forwarding off. -/
def distance1 (forwarding : Bool) : State :=
  { State.reset with
    params := { Params.default with forwarding := forwarding }
    mem := words [] 0x400 [0x00100293#32, 0x00128313#32, 0x00300393#32, 0x05D00893#32, 0x00000073#32]
    pc := 0x408#32
    f := ⟨some ⟨0x404#32, 0x00128313#32, none⟩, 0#2⟩
    d := decoded State.reset 0x400#32 0x00100293#32 }

/-- Cycle 3 of trace 1 claims 3 cycles and sets the forward-fetcher flag (R357, R371). -/
theorem test_trace1_claim : after (step (distance1 false)) (fun t => (t.pc, t.fsm.countdown, t.fsm.forwardFetcher,
    t.counters.dataHazardCount)) = some (0x40C#32, 3#2, true, 1) := by decide

/-- With forwarding, the same cycle forwards the result and latches the consumer (R355). -/
theorem test_forward : after (step (distance1 true)) (fun t => (t.d.content.map (·.op1), t.fsm.countdown,
    t.counters.dataHazardCount)) = some (some 1#32, 0#2, 1) := by decide

/-- Trace 5 at the start of cycle 4: `beq x5, x0, +8` in `D`, predicted taken, with `x5 = 1` forwarded. -/
def mispredicted : State :=
  { State.reset with
    mem := words [] 0x400 [0x00100293#32, 0x00028463#32, 0x00200313#32, 0x00300393#32, 0x05D00893#32, 0x00000073#32]
    pc := 0x40C#32
    d := ⟨(State.decodeRecord { State.reset with env := { Env.empty with answers := [true] } }
      ⟨0x404#32, 0x00028463#32, none⟩).dn.map (fun d => { d with op1 := 1#32 }), 0#2⟩
    e := executed State.reset 0x400#32 0x00100293#32 }

/-- Cycle 4 of trace 5: back to 0x408, one control hazard, one miss (R337). -/
theorem test_trace5_mispredict : after (step mispredicted) (fun t => (t.pc, t.f.content.isNone, t.d.content.isNone,
    t.counters.controlHazardCount, t.counters.branchMiss)) = some (0x408#32, true, true, 1, 1) := by decide

/-- Scenario D: a stack pointer below the floor ends the run before anything of the cycle happens (R321). -/
def lowStack : State := { distance1 true with x := (distance1 true).x.set 2 0x6FFC#32 }

theorem test_stack_guard : after (step lowStack) (fun t => (t.status, t.counters.cycleCount)) =
    some (.fatal (.stackOverflow 0x6FFC#32), 0) := by decide

/-- §1.2: `addi x0, x0, 5` in `E`, `addi x7, x0, 1` in `D`, `add x6, x0, x0` in `F`. -/
def transient (on : Bool) : State :=
  { State.reset with
    params := { Params.default with x0Transient := on }
    pc := 0x40C#32
    f := ⟨some ⟨0x408#32, 0x00000333#32, none⟩, 0#2⟩
    d := decoded State.reset 0x404#32 0x00100393#32
    e := executed State.reset 0x400#32 0x00500013#32 }

theorem test_x0_transient : after (step (transient true)) (fun t => t.d.content.map (fun d => (d.op1, d.op2))) =
    some (some (5#32, 5#32)) := by decide
theorem test_x0_no_transient : after (step (transient false)) (fun t => t.d.content.map (fun d => (d.op1, d.op2))) =
    some (some (0#32, 0#32)) := by decide

/-- §5.1: `div x6, x5, x0` in `D` raises; `sw x5, 512(x0)` in `E` is kept; `addi x5, x0, 7` in `M` commits. -/
def divideBehindStore : State :=
  { State.reset with
    pc := 0x414#32
    d := decoded (regs 7#32 0#32 0#32) 0x408#32 0x0202C333#32
    e := executed (regs 7#32 0#32 0#32) 0x404#32 0x20502023#32
    m := ⟨some { pc := 0x400#32, kind := .addi, out := 7#32, dest := 5#5, writeReg := true, loadClass := false }, 0#2⟩ }

theorem test_divide_keeps_store : after (step divideBehindStore) (fun t => (t.status, t.mem, t.readReg 5#5,
    t.counters.instCount)) = some (.fatal (.divideFault .div 7#32 0#32), [(0x200, 7#8)], 7#32, 1) := by decide

/-- The word placed for the next fetch is executed by the very next step, and its result is written two cycles later. -/
def placed : State := State.reset.withFetchWord 32 0x00A00293

theorem test_placed_executes : after (step placed) (fun t => t.e.content.map (fun e => (e.kind, e.out, e.dest))) =
    some (some (.addi, 10#32, 5#5)) := by decide
theorem test_placed_retires : (nextOf (nextOf (nextOf placed))).readReg 5#5 = 10#32 := by decide
theorem test_placed_ecall : after (step (State.reset.withFetchWord 32 0x00000073)) (fun t => t.e.content.map (·.kind)) =
    some (some .ecall) := by decide
theorem test_placed_full8 : after (step ((regs 0#32 6#32 4#32).withFetchWord 32 0x027332B3)) (fun t => t.e.content.map (·.kind)) =
    some (some .mulhu) := by decide

/-! ## Reset (R431) -/

theorem test_reset : (State.reset.pc, State.reset.readReg 2#5, State.reset.status, State.reset.mem) =
    (0x400#32, 0x8000#32, .running, []) := by decide
theorem reset_memory_wf : State.reset.mem.wf = true := by decide
theorem reset_inv : State.reset.inv = true := by decide


/-! ## Witnesses: states and operands that meet the hypotheses of the statements, clause by clause -/

/-- The outcome is a next state. -/
def isNext (o : Host.Outcome State Fault Refusal) : Bool := (after o (fun _ => ())).isSome

/-- The state of a next outcome, else `s`. -/
def stateOf (s : State) (o : Host.Outcome State Fault Refusal) : State :=
  match o with
  | .next t => t
  | _ => s

theorem next_eq {o : Host.Outcome State Fault Refusal} (s : State) (h : isNext o = true) : o = .next (stateOf s o) := by
  cases o with
  | next t => rfl
  | fault v => simp [isNext, after] at h
  | refused v => simp [isNext, after] at h

/-- A record that stands there and has a property. -/
theorem some_of {α : Type} {o : Option α} {P : α → Prop} [DecidablePred P] (h : o.any (fun a => decide (P a)) = true) :
    ∃ a, o = some a ∧ P a := by
  cases o with
  | none => simp at h
  | some a => exact ⟨a, rfl, by simpa using h⟩

/-- A state with these records in flight, fetching at 0x40C. -/
def flight (f : Option FRec) (d : Option DRec) (e : Option ERec) (m : Option MRec) : State :=
  { State.reset with
    pc := 0x40C#32
    f := ⟨f, 0#2⟩
    d := ⟨d, 0#2⟩
    e := ⟨e, 0#2⟩
    m := ⟨m, 0#2⟩
    env := { Env.empty with answers := [true, true], latencies := [0, 0, 0] } }

/-- A fetched word at 0x408. -/
def fetched (w : Word) : Option FRec := some ⟨0x408#32, w, none⟩

/-- The record of a word at 0x404, its operands from `s`. -/
def recD (s : State) (w : Word) : Option DRec := (s.decodeRecord ⟨0x404#32, w, none⟩).dn

/-- The Execute record of a word at 0x400, its operands from `s`. -/
def recE (s : State) (w : Word) : Option ERec :=
  (s.decodeRecord ⟨0x400#32, w, none⟩).dn.bind (fun d => (executeRecord s.params d).en)

/-- A Memory record that writes 7 to `x5`. -/
def recM : Option MRec := some { pc := 0x3FC#32, kind := .addi, out := 7#32, dest := 5#5, writeReg := true, loadClass := false }

/-- With the branch in `D` predicted as `answer`. -/
def recB (s : State) (w : Word) (answer : Bool) : Option DRec :=
  recD { s with env := { Env.empty with answers := [answer] } } w

/-! ### Encoding -/

theorem witness_EncodeThenDecode : (Instr.fmadd 31#5 31#5 31#5 31#5 7#3).wellFormed .core4 = true ∧
    (Instr.remu 31#5 31#5 31#5).wellFormed .full8 = true := by decide
theorem witness_DecodeThenEncode : decode .core4 0xF9FFFFCF#32 = .ok (.fnmadd 31#5 31#5 31#5 31#5 7#3) := by decide
theorem witness_DecodeMatchesOneRow_decoded : decode .core4 0x00A00293#32 = .ok (.addi 5#5 0#5 10#12) ∧
    Kind.exists .core4 .addi = true ∧ 0x00A00293#32 &&& Kind.rowMask .addi = Kind.rowMatch .addi := by decide
theorem witness_DecodeMatchesOneRow_compressed :
    ∀ k : Kind, k.exists .full8 = true → 0x00000000#32 &&& k.rowMask ≠ k.rowMatch := by
  intro k; cases k <;> decide
theorem witness_DecodeMatchesOneRow_unrecognized :
    ∀ k : Kind, k.exists .full8 = true → 0xFFFFFFFF#32 &&& k.rowMask ≠ k.rowMatch := by
  intro k; cases k <;> decide
theorem witness_DecodedFields : decode .core4 0x00000073#32 = .ok .ecall ∧
    decode .core4 0x407372C3#32 = .ok (.fmadd 5#5 6#5 7#5 8#5 7#3) ∧
    decode .core4 0xFFFFFFB7#32 = .ok (.lui 31#5 0xFFFFF#20) := by decide
theorem witness_DecodedImmediates_I_S : decode .core4 0x800F8F83#32 = .ok (.lb 31#5 31#5 0x800#12) ∧
    decode .core4 0x81FF8023#32 = .ok (.sb 31#5 31#5 0x800#12) := by decide
theorem witness_DecodedImmediates_B_J : decode .core4 0x81FF8063#32 = .ok (.beq 31#5 31#5 0x800#12) ∧
    decode .core4 0x80000FEF#32 = .ok (.jal 31#5 0x80000#20) := by decide
theorem witness_DecodedImmediates_U_shift : decode .core4 0x80000F97#32 = .ok (.auipc 31#5 0x80000#20) ∧
    decode .core4 0x41FFDF93#32 = .ok (.srai 31#5 31#5 31#5) := by decide

/-! ### Memory -/

/-- At the top of the address space. -/
theorem witness_MemoryLittleEndian : Memory.wf [(0xFFFFFFFF, 1#8)] = true ∧ 0xFFFFFFFC + 4 ≤ 2 ^ 32 ∧ (4 : Nat) ≤ 4 := by decide

/-! ### Instructions -/

theorem witness_DivideResults : (regs 0x80000000#32 1#32 0#32).readReg 6#5 ≠ 0#32 ∧
    ¬((regs 0x80000000#32 1#32 0#32).readReg 5#5 = 0x80000000#32 ∧
      (regs 0x80000000#32 1#32 0#32).readReg 6#5 = 0xFFFFFFFF#32) := by decide

/-- The two operand pairs of R280, with the corner rule given. -/
def cornerState (a b : Word) (c : DivCorner) : State :=
  { regs a b 0#32 with params := { Params.default with divCorner := c } }

theorem witness_DivideCorners_fault : (cornerState 7#32 0#32 .fault).params.divCorner = .fault ∧
    (cornerState 7#32 0#32 .fault).readReg 6#5 = 0#32 ∧
    (cornerState 0x80000000#32 0xFFFFFFFF#32 .fault).readReg 5#5 = 0x80000000#32 ∧
    (cornerState 0x80000000#32 0xFFFFFFFF#32 .fault).readReg 6#5 = 0xFFFFFFFF#32 := by decide
theorem witness_DivideCorners_riscV : (cornerState 7#32 0#32 .riscV).params.divCorner = .riscV ∧
    (cornerState 7#32 0#32 .riscV).readReg 6#5 = 0#32 ∧
    (cornerState 0x80000000#32 0xFFFFFFFF#32 .riscV).readReg 5#5 = 0x80000000#32 ∧
    (cornerState 0x80000000#32 0xFFFFFFFF#32 .riscV).readReg 6#5 = 0xFFFFFFFF#32 := by decide
theorem test_div_riscV : regAfter (exec (.div 8#5 5#5 6#5) (cornerState 7#32 0#32 .riscV)) 8#5 = some 0xFFFFFFFF#32 := by decide
theorem test_rem_riscV : regAfter (exec (.rem 8#5 5#5 6#5) (cornerState 0x80000000#32 0xFFFFFFFF#32 .riscV)) 8#5 = some 0#32 := by
  decide

/-- The last bytes of memory, for loads and stores. -/
theorem witness_LoadResults :
    accessOk (regs 0x10000#32 0#32 0#32).params ((regs 0x10000#32 0#32 0#32).readReg 5#5 + (0xFFF#12).signExtend 32) 1 = true ∧
    accessOk (regs 0x10000#32 0#32 0#32).params ((regs 0x10000#32 0#32 0#32).readReg 5#5 + (0xFFE#12).signExtend 32) 2 = true ∧
    accessOk (regs 0x10000#32 0#32 0#32).params ((regs 0x10000#32 0#32 0#32).readReg 5#5 + (0xFFC#12).signExtend 32) 4 = true := by
  decide
theorem witness_StoreResults : (regs 0x10000#32 0x12345678#32 0#32).mem.wf = true ∧
    accessOk (regs 0x10000#32 0#32 0#32).params ((regs 0x10000#32 0#32 0#32).readReg 5#5 + (0xFFF#12).signExtend 32) 1 = true ∧
    accessOk (regs 0x10000#32 0#32 0#32).params ((regs 0x10000#32 0#32 0#32).readReg 5#5 + (0xFFE#12).signExtend 32) 2 = true ∧
    accessOk (regs 0x10000#32 0#32 0#32).params ((regs 0x10000#32 0#32 0#32).readReg 5#5 + (0xFFC#12).signExtend 32) 4 = true := by
  decide
/-- The first byte past the end, an access that straddles the end, and a misaligned one. -/
theorem witness_AccessFaults :
    accessOk (regs 0x10000#32 0#32 0#32).params ((regs 0x10000#32 0#32 0#32).readReg 5#5 + (0#12).signExtend 32) 1 = false ∧
    accessOk (regs 0x10000#32 0#32 0#32).params ((regs 0x10000#32 0#32 0#32).readReg 5#5 + (0xFFF#12).signExtend 32) 2 = false ∧
    accessOk (regs 0x10000#32 0#32 0#32).params ((regs 0x10000#32 0#32 0#32).readReg 5#5 + (0xFFA#12).signExtend 32) 4 = false := by
  decide
/-- An access that would pass 2^32 is out of range even where every address exists (R82). -/
theorem test_access_top : accessOk { Params.default with ranges := [⟨0, 2 ^ 32⟩], misaligned := .byteWise } 0xFFFFFFFD#32 4 = false ∧
    accessOk { Params.default with ranges := [⟨0, 2 ^ 32⟩], misaligned := .byteWise } 0xFFFFFFFC#32 4 = true := by decide

/-! ### The system call -/

theorem witness_EcallPrints : (callState 0x141#32 1#32).readReg 17#5 = 1#32 ∧
    (callState 0x80000000#32 2#32).readReg 17#5 = 2#32 := by decide
theorem witness_EcallPrintString : (callState 0x100#32 0#32).readReg 17#5 = 0#32 ∧
    (∀ k ≤ 4, accessOk (callState 0x100#32 0#32).params ((callState 0x100#32 0#32).readReg 10#5 + BitVec.ofNat 32 k) 1 = true) ∧
    (∀ k < 4, (callState 0x100#32 0#32).mem.read ((callState 0x100#32 0#32).readReg 10#5 + BitVec.ofNat 32 k).toNat ≠ 0#8) ∧
    (callState 0x100#32 0#32).mem.read ((callState 0x100#32 0#32).readReg 10#5 + BitVec.ofNat 32 4).toNat = 0#8 := by decide
theorem witness_EcallPrintString_empty : (callState 0x200#32 0#32).readReg 17#5 = 0#32 ∧
    accessOk (callState 0x200#32 0#32).params ((callState 0x200#32 0#32).readReg 10#5 + BitVec.ofNat 32 0) 1 = true ∧
    (callState 0x200#32 0#32).mem.read ((callState 0x200#32 0#32).readReg 10#5 + BitVec.ofNat 32 0).toNat = 0#8 := by decide

/-- A string of two bytes that runs off the end of memory. -/
def offEnd : State := { callState 0xFFFE#32 0#32 with mem := [(0xFFFE, 0x4F#8), (0xFFFF, 0x4B#8)] }

theorem witness_EcallStringStops_fault : offEnd.readReg 17#5 = 0#32 ∧
    (∀ k < 2, accessOk offEnd.params (offEnd.readReg 10#5 + BitVec.ofNat 32 k) 1 = true ∧
      offEnd.mem.read (offEnd.readReg 10#5 + BitVec.ofNat 32 k).toNat ≠ 0#8) ∧
    accessOk offEnd.params (offEnd.readReg 10#5 + BitVec.ofNat 32 2) 1 = false := by decide
theorem test_ecall_string_fault : after (exec .ecall offEnd) (fun t => (t.status, t.console.output)) =
    some (.fatal (.memoryFault 0x10000#32 1 .stringRead), [.char 0x4F#8, .char 0x4B#8]) := by decide

/-- `n` bytes of value 1 from address `a` on. -/
def ones : Nat → Nat → Memory
  | _, 0 => []
  | a, n + 1 => (a, 1#8) :: ones (a + 1) n

theorem ones_read (n a b : Nat) (h : a ≤ b) (h' : b < a + n) : (ones a n).read b = 1#8 := by
  induction n generalizing a with
  | zero => omega
  | succ n ih =>
    by_cases hb : b = a
    · simp [ones, Memory.read, hb]
    · simp only [ones, Memory.read, hb, if_false]
      exact ih (a + 1) (by omega) (by omega)

/-- Every address exists and holds a nonzero byte. -/
def endless : State :=
  { callState 0#32 0#32 with mem := ones 0 (2 ^ 32), params := { Params.default with ranges := [⟨0, 2 ^ 32⟩] } }

theorem witness_EcallStringStops_endless : endless.readReg 17#5 = 0#32 ∧
    ∀ a : Word, accessOk endless.params a 1 = true ∧ endless.mem.read a.toNat ≠ 0#8 := by
  refine ⟨by decide, fun a => ⟨?_, ?_⟩⟩
  · have := a.isLt
    simp [endless, accessOk, inRange, inRangeByte, aligned, List.range_succ, Nat.mod_one]
    omega
  · have h : endless.mem.read a.toNat = 1#8 := ones_read (2 ^ 32) 0 a.toNat (by omega) (by have := a.isLt; omega)
    rw [h]; decide

theorem witness_EcallExits : (callState 0#32 3#32).readReg 17#5 = 3#32 ∧ (callState 0#32 93#32).readReg 17#5 = 93#32 ∧
    (callState 0#32 93#32).params.stackFloor.toNat ≤ ((callState 0#32 93#32).readReg 2#5).toNat := by decide
theorem test_ecall_exit_guard : after (exec .ecall ((callState 0#32 93#32).writeReg 2#5 0x6FFF#32)) (·.status) =
    some (.fatal (.stackOverflow 0x6FFF#32)) := by decide
theorem witness_EcallReads : (callState 0#32 4#32).readReg 17#5 = 4#32 ∧ (callState 0#32 4#32).env.chars = [0x7A#8] ∧
    (callState 0#32 5#32).readReg 17#5 = 5#32 ∧ (callState 0#32 5#32).env.ints = [0xFFFFFFF9#32] := by decide
theorem witness_EcallWaitsAndUnknown_waits :
    ({ callState 0#32 4#32 with env := Env.empty } : State).readReg 17#5 = 4#32 ∧
    ({ callState 0#32 5#32 with env := Env.empty } : State).readReg 17#5 = 5#32 := by decide
theorem witness_EcallWaitsAndUnknown_unknown :
    ∀ n ∈ [0, 1, 2, 3, 4, 5, 93], (callState 0#32 0xFFFFFFFF#32).readReg 17#5 ≠ BitVec.ofNat 32 n ∧
      (callState 0#32 92#32).readReg 17#5 ≠ BitVec.ofNat 32 n := by decide

/-! ### Frames -/

theorem witness_FrameRegisters : exec (.addi 5#5 0#5 10#12) State.reset =
    .next (stateOf State.reset (exec (.addi 5#5 0#5 10#12) State.reset)) ∧ 6#5 ≠ (Instr.addi 5#5 0#5 10#12).dest :=
  ⟨next_eq _ (by decide), by decide⟩
theorem witness_FrameMemory_store : storeState.mem.wf = true ∧ (Instr.sw 0#5 6#5 512#12).kind.isStore = true ∧
    exec (.sw 0#5 6#5 512#12) storeState = .next (stateOf storeState (exec (.sw 0#5 6#5 512#12) storeState)) ∧
    (storeState.readReg 0#5 + (Instr.sw 0#5 6#5 512#12).imm).toNat + 4 ≤ 516 :=
  ⟨by decide, by decide, next_eq _ (by decide), by decide⟩
theorem witness_FrameMemory_other : dataState.mem.wf = true ∧ (Instr.lw 5#5 0#5 256#12).kind.isStore = false ∧
    exec (.lw 5#5 0#5 256#12) dataState = .next (stateOf dataState (exec (.lw 5#5 0#5 256#12) dataState)) :=
  ⟨by decide, by decide, next_eq _ (by decide)⟩
theorem witness_FrameRest : (Instr.sub 8#5 5#5 6#5).kind ≠ .ecall ∧ (Instr.sub 8#5 5#5 6#5).kind.isBranch = false ∧
    exec (.sub 8#5 5#5 6#5) State.reset = .next (stateOf State.reset (exec (.sub 8#5 5#5 6#5) State.reset)) :=
  ⟨by decide, by decide, next_eq _ (by decide)⟩

/-! ### The cycle -/

/-- One below the floor; at the floor the guard passes. -/
theorem witness_StackGuardEndsRun : lowStack.status = .running ∧ (({ lowStack with x := lowStack.x.set 2 0x6FFF#32 } : State).readReg
    2#5).toNat < (lowStack.params.stackBase - lowStack.params.stackMaxSize).toNat ∧
    ({ lowStack with x := lowStack.x.set 2 0x7000#32 } : State).guardFails = false := by decide

/-- The fetch of an existing word. -/
def fetchOk : State := { flight none none none none with mem := words [] 0x40C [0x00A00293#32] }
/-- The fetch at the first address past memory. -/
def fetchBad : State := { flight none none none none with pc := 0x10000#32 }

theorem witness_FetchLatchesWord : fetchOk.Cycles (nextOf fetchOk) ∧ fetchOk.f.stall = 0#2 ∧
    ∃ f, (nextOf fetchOk).f.content = some f ∧ accessOk fetchOk.params f.pc 4 = true :=
  ⟨cycles_of (by decide), by decide, some_of (by decide)⟩
theorem witness_FetchLatchesWord_fault : fetchBad.Cycles (nextOf fetchBad) ∧ fetchBad.f.stall = 0#2 ∧
    ∃ f, (nextOf fetchBad).f.content = some f ∧ accessOk fetchBad.params f.pc 4 = false :=
  ⟨cycles_of (by decide), by decide, some_of (by decide)⟩

/-- In `F`: an instruction, a branch, a word that is none, and a fetch fault. -/
def decodeAddi : State := flight (fetched 0x00A00293#32) none none none
def decodeBeq : State := flight (fetched 0x00000463#32) none none none
def decodeBad : State := flight (fetched 0xFFFFFFFF#32) none none none
def decodePoison : State := flight (some ⟨0x408#32, 0#32, some (.memoryFault 0x408#32 4 .fetch)⟩) none none none

theorem witness_DecodeLatchesRecord_plain : decodeAddi.Cycles (nextOf decodeAddi) ∧ decodeAddi.d.stall = 0#2 ∧
    (∃ f, decodeAddi.restoreOrTick.f.content = some f ∧ f.poison = none ∧ decode decodeAddi.params.mSet f.inst = .ok (.addi 5#5 0#5 10#12)) ∧
    ∃ d, (nextOf decodeAddi).d.content = some d ∧ d.pc = 0x408#32 :=
  ⟨cycles_of (by decide), by decide, some_of (by decide), some_of (by decide)⟩
theorem witness_DecodeLatchesRecord_branch : decodeBeq.Cycles (nextOf decodeBeq) ∧ decodeBeq.d.stall = 0#2 ∧
    (∃ f, decodeBeq.restoreOrTick.f.content = some f ∧ f.poison = none ∧ decode decodeBeq.params.mSet f.inst = .ok (.beq 0#5 0#5 4#12)) ∧
    ∃ d, (nextOf decodeBeq).d.content = some d ∧ d.pc = 0x408#32 :=
  ⟨cycles_of (by decide), by decide, some_of (by decide), some_of (by decide)⟩
theorem witness_DecodeLatchesRecord_calls : decodeBeq.Cycles (nextOf decodeBeq) ∧ decodeBeq.decodedBranch.isSome = true ∧
    decodeAddi.Cycles (nextOf decodeAddi) ∧ decodeAddi.decodedBranch = none :=
  ⟨cycles_of (by decide), by decide, cycles_of (by decide), by decide⟩
theorem test_predict_logged : (nextOf decodeBeq).predictorLog = [.predict 0x408#32 .beq 0#32 0#32 8#32 true] ∧
    (nextOf decodeBeq).env.answers = [true] := by decide
theorem witness_DecodeLatchesRecord_error : decodeBad.Cycles (nextOf decodeBad) ∧ decodeBad.d.stall = 0#2 ∧
    (∃ f, decodeBad.restoreOrTick.f.content = some f ∧ f.poison = none ∧ decode decodeBad.params.mSet f.inst = .error .unrecognized) ∧
    ∃ d, (nextOf decodeBad).d.content = some d ∧ d.pc = 0x408#32 :=
  ⟨cycles_of (by decide), by decide, some_of (by decide), some_of (by decide)⟩
theorem witness_DecodeLatchesRecord_poison : decodePoison.Cycles (nextOf decodePoison) ∧ decodePoison.d.stall = 0#2 ∧
    (∃ f, decodePoison.restoreOrTick.f.content = some f ∧ f.poison = some (.memoryFault 0x408#32 4 .fetch)) ∧
    ∃ d, (nextOf decodePoison).d.content = some d ∧ d.pc = 0x408#32 :=
  ⟨cycles_of (by decide), by decide, some_of (by decide), some_of (by decide)⟩

/-- In `D`: a store, and a console read. -/
def executeSw : State := flight none (recD (regs 7#32 0#32 0#32) 0x20502023#32) none none
def executeRead : State := flight none (recD (callState 0#32 4#32) 0x00000073#32) none none

theorem witness_ExecuteLatchesRecord : executeSw.Cycles (nextOf executeSw) ∧ executeSw.e.stall = 0#2 ∧
    (∃ d, executeSw.d.content = some d ∧ d.kind = .real .sw) ∧
    fetchOk.Cycles (nextOf fetchOk) ∧ fetchOk.e.stall = 0#2 ∧ fetchOk.d.content = none :=
  ⟨cycles_of (by decide), by decide, some_of (by decide), cycles_of (by decide), by decide, by decide⟩
theorem witness_ExecuteLatchesRecord_ecall : executeRead.Cycles (nextOf executeRead) ∧ executeRead.e.stall = 0#2 ∧
    ∃ d, executeRead.d.content = some d ∧ d.kind = .real .ecall ∧ d.op2 = 4#32 :=
  ⟨cycles_of (by decide), by decide, some_of (by decide)⟩

/-- In `M`: a result for `x5`. -/
def retire : State := flight none none none recM

theorem witness_WriteBackRetires : retire.Cycles (nextOf retire) ∧
    (∃ m, retire.m.content = some m ∧ m.dest = 5#5 ∧ m.writeReg = true) ∧
    fetchOk.Cycles (nextOf fetchOk) ∧ fetchOk.m.content = none :=
  ⟨cycles_of (by decide), some_of (by decide), cycles_of (by decide), by decide⟩

/-- In `E`: the store of 7 at 0x200. -/
def memSw : State := flight none none (recE (regs 7#32 0#32 0#32) 0x20502023#32) none

theorem witness_CycleMemory_store : memSw.Cycles (nextOf memSw) ∧ memSw.mem.wf = true ∧
    ∃ e, memSw.e.content = some e ∧ e.readMem = false ∧ e.writeMem = true ∧ e.memLen = 4#3 :=
  ⟨cycles_of (by decide), by decide, some_of (by decide)⟩
theorem witness_CycleMemory_none : fetchOk.Cycles (nextOf fetchOk) ∧ fetchOk.mem.wf = true ∧ fetchOk.e.content = none :=
  ⟨cycles_of (by decide), by decide, by decide⟩

/-- A misaligned load, a misaligned store and an unknown call in `E`. -/
def memLoadBad : State := flight none none (recE (regs 7#32 0#32 0#32) 0x10202283#32) recM
def memStoreBad : State := flight none none (recE (regs 7#32 0#32 0#32) 0x20502123#32) recM
def memCallBad : State := flight none none (recE (callState 0#32 6#32) 0x00000073#32) recM

theorem witness_MemoryEventEndsRun_load : memLoadBad.status = .running ∧ memLoadBad.cycleStart.guardFails = false ∧
    ∃ e, memLoadBad.e.content = some e ∧ e.readMem = true ∧ accessOk memLoadBad.params e.out e.memLen.toNat = false :=
  ⟨by decide, by decide, some_of (by decide)⟩
theorem witness_MemoryEventEndsRun_store : memStoreBad.status = .running ∧ memStoreBad.cycleStart.guardFails = false ∧
    ∃ e, memStoreBad.e.content = some e ∧ e.readMem = false ∧ e.writeMem = true ∧
      accessOk memStoreBad.params e.out e.memLen.toNat = false :=
  ⟨by decide, by decide, some_of (by decide)⟩
theorem witness_MemoryEventEndsRun_call : memCallBad.status = .running ∧ memCallBad.cycleStart.guardFails = false ∧
    ∃ e, memCallBad.e.content = some e ∧ e.readMem = false ∧ e.writeMem = false ∧ e.kind = .ecall ∧
      ∀ n ∈ [0, 1, 2, 3, 4, 5, 93], e.op2 ≠ BitVec.ofNat 32 n :=
  ⟨by decide, by decide, some_of (by decide)⟩
/-- Call 0 in `E` on the string that runs off the end of memory. -/
def memStringBad : State :=
  { flight none none (recE offEnd 0x00000073#32) recM with mem := offEnd.mem }

theorem witness_MemoryEventEndsRun_string : memStringBad.status = .running ∧ memStringBad.cycleStart.guardFails = false ∧
    (∃ e, memStringBad.e.content = some e ∧ e.readMem = false ∧ e.writeMem = false ∧ e.kind = .ecall ∧ e.op2 = 0#32 ∧
      e.op1 = 0xFFFE#32 ∧ accessOk memStringBad.params (e.op1 + BitVec.ofNat 32 2) 1 = false) ∧
    memStringBad.stringAt 0xFFFE#32 2 :=
  ⟨by decide, by decide, some_of (by decide), ⟨by decide, by decide⟩⟩
theorem test_memory_string : after (step memStringBad) (fun t => (t.status, t.console.output)) =
    some (.fatal (.memoryFault 0x10000#32 1 .stringRead), [.char 0x4F#8, .char 0x4B#8]) := by decide
theorem test_memory_event : after (step memLoadBad) (fun t => (t.status, t.readReg 5#5, t.counters.instCount)) =
    some (.fatal (.memoryFault 258#32 4 .load), 7#32, 1) := by decide

/-- A poison in `D`, nothing in `E`. -/
def poisoned : State := flight none (some (poisonRecord 0x404#32 0#32 (.memoryFault 0x404#32 4 .fetch))) none none

/-- The Memory stage's result in a state, when it is no event. -/
def memOf (s : State) : Option (Option MRec × Effects) :=
  match s.e.content with
  | none => some (none, Effects.nothing)
  | some e => match s.cycleStart.memoryAccess e with
    | .done m fx => some (some m, fx)
    | _ => none

theorem done_of {s : State} {mn : Option MRec} {fx : Effects} (h : memOf s = some (mn, fx)) : s.cycleStart.MemoryDone mn fx := by
  unfold memOf at h
  cases he : s.e.content with
  | none => rw [he] at h; simp at h; exact .inl ⟨by simpa using he, h.1.symm, h.2.symm⟩
  | some e =>
    rw [he] at h
    cases ha : s.cycleStart.memoryAccess e with
    | done m fx' =>
      simp only [ha, Option.some.injEq, Prod.mk.injEq] at h
      exact .inr ⟨e, m, by simpa using he, h.2 ▸ ha, h.1.symm⟩
    | stuck f => simp [ha] at h
    | fatal v p => simp [ha] at h
    | exit => simp [ha] at h

/-- The event is Execute's, behind a store; a poison's; and none, where the cycle completes. -/
theorem witness_ExecuteEventEndsRun_store : divideBehindStore.status = .running ∧
    divideBehindStore.cycleStart.guardFails = false ∧
    (∃ d, divideBehindStore.d.content = some d ∧
      (executeRecord divideBehindStore.params d).event = some (.divideFault .div 7#32 0#32)) ∧
    (∃ e, divideBehindStore.e.content = some e ∧ e.readMem = false ∧ e.writeMem = true) ∧
    ∃ r, memOf divideBehindStore = some r ∧ divideBehindStore.cycleStart.MemoryDone r.1 r.2 :=
  ⟨by decide, by decide, some_of (by decide), some_of (by decide), _, rfl, done_of rfl⟩
theorem witness_ExecuteEventEndsRun_poison : poisoned.status = .running ∧ poisoned.cycleStart.guardFails = false ∧
    (∃ d, poisoned.d.content = some d ∧ (executeRecord poisoned.params d).event = some (.memoryFault 0x404#32 4 .fetch)) ∧
    poisoned.cycleStart.MemoryDone none Effects.nothing :=
  ⟨by decide, by decide, some_of (by decide), done_of (by decide)⟩

/-- An undecodable word in `F`, and a fetch past the end of memory, under `SPEC_FAULT = Immediate`. -/
def immediate (s : State) : State := { s with params := { Params.default with specFault := .immediate } }

theorem witness_ExecuteEventEndsRun_decode : (immediate decodeBad).cycleStart.guardFails = false ∧
    (immediate decodeBad).params.specFault = .immediate ∧ (immediate decodeBad).d.content = none ∧
    (∃ f, (immediate decodeBad).restoreOrTick.f.content = some f ∧ f.poison = none ∧
      decode (immediate decodeBad).params.mSet f.inst = .error .unrecognized) ∧
    (immediate decodeBad).cycleStart.MemoryDone none Effects.nothing :=
  ⟨by decide, by decide, by decide, some_of (by decide), done_of (by decide)⟩
theorem witness_ExecuteEventEndsRun_fetch : (immediate fetchBad).cycleStart.guardFails = false ∧
    (immediate fetchBad).params.specFault = .immediate ∧ (immediate fetchBad).d.content = none ∧
    (immediate fetchBad).restoreOrTick.f.content = none ∧
    accessOk (immediate fetchBad).params (immediate fetchBad).restoreOrTick.pc 4 = false ∧
    (immediate fetchBad).cycleStart.MemoryDone none Effects.nothing :=
  ⟨by decide, by decide, by decide, by decide, by decide, done_of (by decide)⟩
theorem witness_ExecuteEventEndsRun_completes : decodeBad.status = .running ∧ decodeBad.cycleStart.guardFails = false ∧
    decodeBad.d.content = none ∧ decodeBad.params.specFault ≠ .immediate ∧ decodeBad.cycleStart.MemoryDone none Effects.nothing :=
  ⟨by decide, by decide, by decide, by decide, done_of (by decide)⟩
theorem test_immediate_decode : after (step (immediate decodeBad)) (·.status) =
    some (.fatal (.decodeError 0x408#32 0xFFFFFFFF#32 .unrecognized)) := by decide
theorem test_immediate_fetch : after (step (immediate fetchBad)) (·.status) =
    some (.fatal (.memoryFault 0x10000#32 4 .fetch)) := by decide

/-- A console read and a character print in `E` while Execute raises: both effects are made (R332). -/
def divideBehindCall (n : Word) : State :=
  { divideBehindStore with
    e := ⟨recE (callState 0x41#32 n) 0x00000073#32, 0#2⟩
    env := { Env.empty with chars := [0x7A#8] } }

theorem test_divide_keeps_output : after (step (divideBehindCall 1#32)) (·.console.output) = some [.char 0x41#8] := by decide
theorem test_divide_keeps_input : after (step (divideBehindCall 4#32)) (fun t => (t.console.consumed, t.env.chars)) =
    some ([.char 0x7A#8], []) := by decide

/-- An exit call in `E`. -/
def exiting (n : Word) : State := flight none none (recE (callState 0#32 n) 0x00000073#32) recM

theorem witness_ExitEndsRun : (exiting 93#32).status = .running ∧ (exiting 93#32).cycleStart.guardFails = false ∧
    (∃ e, (exiting 93#32).e.content = some e ∧ e.readMem = false ∧ e.writeMem = false ∧ e.kind = .ecall ∧ e.op2 = 93#32) ∧
    ∃ e, (exiting 3#32).e.content = some e ∧ e.readMem = false ∧ e.writeMem = false ∧ e.kind = .ecall ∧ e.op2 = 3#32 :=
  ⟨by decide, by decide, some_of (by decide), some_of (by decide)⟩
theorem test_exit : after (step (exiting 93#32)) (fun t => (t.status, t.counters.instCount, t.counters.cycleCount)) =
    some (.exited, 2, 1) := by decide

theorem witness_BlockingReadSuspends : (exiting 4#32).status = .running ∧ (exiting 4#32).cycleStart.guardFails = false ∧
    (∃ e, (exiting 4#32).e.content = some e ∧ e.readMem = false ∧ e.writeMem = false ∧ e.kind = .ecall ∧ e.op2 = 4#32) ∧
    (exiting 4#32).env.chars = [] ∧
    (∃ e, (exiting 5#32).e.content = some e ∧ e.readMem = false ∧ e.writeMem = false ∧ e.kind = .ecall ∧ e.op2 = 5#32) ∧
    (exiting 5#32).env.ints = [] :=
  ⟨by decide, by decide, some_of (by decide), by decide, some_of (by decide), by decide⟩

/-! ### Control hazards and the redirect -/

/-- A jump or branch in `D`. -/
def jumping (d : Option DRec) : State := flight (fetched 0x00A00293#32) d none none

theorem witness_ControlHazardRedirects_jal :
    (jumping (recD State.reset 0x008000EF#32)).Cycles (nextOf (jumping (recD State.reset 0x008000EF#32))) ∧
    ∃ d, (jumping (recD State.reset 0x008000EF#32)).d.content = some d ∧ d.kind = .real .jal :=
  ⟨cycles_of (by decide), some_of (by decide)⟩
theorem witness_ControlHazardRedirects_jalr :
    (jumping (recD (regs 0x40D#32 0#32 0#32) 0x000280E7#32)).Cycles
      (nextOf (jumping (recD (regs 0x40D#32 0#32 0#32) 0x000280E7#32))) ∧
    ∃ d, (jumping (recD (regs 0x40D#32 0#32 0#32) 0x000280E7#32)).d.content = some d ∧ d.kind = .real .jalr :=
  ⟨cycles_of (by decide), some_of (by decide)⟩
theorem test_jal_cycle : after (step (jumping (recD State.reset 0x008000EF#32))) (fun t => (t.pc, t.counters.controlHazardCount)) =
    some (0x40C#32, 1) := by decide

/-- Each branch with operands -1 and 1, predicted against its outcome. -/
def wrongBranch (w : Word) (answer : Bool) : State := jumping (recB (regs 0xFFFFFFFF#32 1#32 0#32) w answer)

theorem witness_ControlHazardRedirects_beq : (wrongBranch 0x00628463#32 true).Cycles (nextOf (wrongBranch 0x00628463#32 true)) ∧
    ∃ d, (wrongBranch 0x00628463#32 true).d.content = some d ∧ d.kind = .real .beq ∧ d.predictedBranch ≠ decide (d.op1 = d.op2) :=
  ⟨cycles_of (by decide), some_of (by decide)⟩
theorem witness_ControlHazardRedirects_bne : (wrongBranch 0x00629463#32 false).Cycles (nextOf (wrongBranch 0x00629463#32 false)) ∧
    ∃ d, (wrongBranch 0x00629463#32 false).d.content = some d ∧ d.kind = .real .bne ∧ d.predictedBranch ≠ decide (d.op1 ≠ d.op2) :=
  ⟨cycles_of (by decide), some_of (by decide)⟩
theorem witness_ControlHazardRedirects_blt : (wrongBranch 0x0062C463#32 false).Cycles (nextOf (wrongBranch 0x0062C463#32 false)) ∧
    ∃ d, (wrongBranch 0x0062C463#32 false).d.content = some d ∧ d.kind = .real .blt ∧ d.predictedBranch ≠ decide (d.op1.toInt < d.op2.toInt) :=
  ⟨cycles_of (by decide), some_of (by decide)⟩
theorem witness_ControlHazardRedirects_bge : (wrongBranch 0x0062D463#32 true).Cycles (nextOf (wrongBranch 0x0062D463#32 true)) ∧
    ∃ d, (wrongBranch 0x0062D463#32 true).d.content = some d ∧ d.kind = .real .bge ∧ d.predictedBranch ≠ decide (d.op2.toInt ≤ d.op1.toInt) :=
  ⟨cycles_of (by decide), some_of (by decide)⟩
theorem witness_ControlHazardRedirects_bltu : (wrongBranch 0x0062E463#32 true).Cycles (nextOf (wrongBranch 0x0062E463#32 true)) ∧
    ∃ d, (wrongBranch 0x0062E463#32 true).d.content = some d ∧ d.kind = .real .bltu ∧ d.predictedBranch ≠ decide (d.op1.toNat < d.op2.toNat) :=
  ⟨cycles_of (by decide), some_of (by decide)⟩
theorem witness_ControlHazardRedirects_bgeu : (wrongBranch 0x0062F463#32 false).Cycles (nextOf (wrongBranch 0x0062F463#32 false)) ∧
    ∃ d, (wrongBranch 0x0062F463#32 false).d.content = some d ∧ d.kind = .real .bgeu ∧ d.predictedBranch ≠ decide (d.op2.toNat ≤ d.op1.toNat) :=
  ⟨cycles_of (by decide), some_of (by decide)⟩

/-- In `F`, a branch that the predictor answers not taken. -/
def decodeNotTaken : State :=
  { flight (fetched 0x00000463#32) none none none with env := { Env.empty with answers := [false] } }

theorem witness_PredictedTakenRedirects_taken : decodeBeq.Cycles (nextOf decodeBeq) ∧ decodeBeq.d.stall = 0#2 ∧
    decodeBeq.cycleStart.executeStage.ctrl = none ∧ ∃ d, (nextOf decodeBeq).d.content = some d ∧ d.predictedBranch = true :=
  ⟨cycles_of (by decide), by decide, by decide, some_of (by decide)⟩
theorem witness_PredictedTakenRedirects_not : decodeNotTaken.Cycles (nextOf decodeNotTaken) ∧ decodeNotTaken.d.stall = 0#2 ∧
    decodeNotTaken.cycleStart.executeStage.ctrl = none ∧
    ∃ d, (nextOf decodeNotTaken).d.content = some d ∧ d.predictedBranch = false :=
  ⟨cycles_of (by decide), by decide, by decide, some_of (by decide)⟩
theorem witness_PredictedTakenRedirects_none : fetchOk.Cycles (nextOf fetchOk) ∧ fetchOk.d.stall = 0#2 ∧
    fetchOk.cycleStart.executeStage.ctrl = none ∧ (nextOf fetchOk).d.content = none :=
  ⟨cycles_of (by decide), by decide, by decide, by decide⟩

/-! ### Stalls and forwarding -/

/-- `addi x6, x5, 1` in `F` with the producer of `x5` in Memory or in WriteBack. -/
def distance2 (forwarding : Bool) : State :=
  { flight (fetched 0x00128313#32) none (recE State.reset 0x00100293#32) none with
    params := { Params.default with forwarding := forwarding } }
def distance3 (forwarding : Bool) : State :=
  { flight (fetched 0x00128313#32) none none recM with params := { Params.default with forwarding := forwarding } }

/-- The claim of a state's cycle, computed as the rule says. -/
def claimOf (s : State) (mn : Option MRec) : Option Claim :=
  (hazardLogic s.params s.cycleStart.decodeStage.dn s.cycleStart.executeStage.en mn s.m.content).claim

theorem witness_ClaimArmsReplay_1 : (distance3 false).Cycles (nextOf (distance3 false)) ∧ (distance3 false).cycleStart.executeStage.ctrl = none ∧ (distance3 false).fsm.forwardFetcher = false ∧ (distance3 false).f.stall = 0#2 ∧
    ∃ r, memOf (distance3 false) = some r ∧ (distance3 false).cycleStart.MemoryDone r.1 r.2 ∧ claimOf (distance3 false) r.1 = some ⟨1#2, .data⟩ :=
  ⟨cycles_of (by decide), by decide, by decide, by decide, _, rfl, done_of rfl, by decide⟩
theorem witness_ClaimArmsReplay_2 : (distance2 false).Cycles (nextOf (distance2 false)) ∧ (distance2 false).cycleStart.executeStage.ctrl = none ∧
    ∃ r, memOf (distance2 false) = some r ∧ (distance2 false).cycleStart.MemoryDone r.1 r.2 ∧ claimOf (distance2 false) r.1 = some ⟨2#2, .data⟩ :=
  ⟨cycles_of (by decide), by decide, _, rfl, done_of rfl, by decide⟩
theorem witness_ClaimArmsReplay_3 : (distance1 false).Cycles (nextOf (distance1 false)) ∧ (distance1 false).cycleStart.executeStage.ctrl = none ∧
    ∃ r, memOf (distance1 false) = some r ∧ (distance1 false).cycleStart.MemoryDone r.1 r.2 ∧ claimOf (distance1 false) r.1 = some ⟨3#2, .data⟩ :=
  ⟨cycles_of (by decide), by decide, _, rfl, done_of rfl, by decide⟩
theorem witness_ClaimArmsReplay_memory : loadUse.Cycles (nextOf loadUse) ∧ loadUse.cycleStart.executeStage.ctrl = none ∧
    ∃ r, memOf loadUse = some r ∧ loadUse.cycleStart.MemoryDone r.1 r.2 ∧ claimOf loadUse r.1 = some ⟨2#2, .memory⟩ :=
  ⟨cycles_of (by decide), by decide, _, rfl, done_of rfl, by decide⟩
/-- A claim of 1 leaves the fetched record in `F` (R371). -/
theorem test_claim1_keepsF : (nextOf (distance3 false)).f.content.map (·.pc) = some 0x40C#32 := by decide

/-- The FSM at each count. -/
def counting (n : BitVec 2) (saved : Option FRec) (flag : Bool) : State :=
  { flight none none none none with fsm := ⟨n, saved, 0x40C#32, flag⟩ }

theorem witness_RestoreAndTick : (counting 1#2 (fetched 0x00128313#32) false).fsm.countdown = 1#2 ∧
    2 ≤ (counting 2#2 (fetched 0x00128313#32) false).fsm.countdown.toNat ∧
    2 ≤ (counting 3#2 (fetched 0x00128313#32) true).fsm.countdown.toNat ∧ (counting 0#2 none false).fsm.countdown = 0#2 := by
  decide
theorem witness_ForwardFetcherSuppresses : (counting 3#2 (fetched 0x00128313#32) true).Cycles
      (nextOf (counting 3#2 (fetched 0x00128313#32) true)) ∧
    (counting 3#2 (fetched 0x00128313#32) true).fsm.forwardFetcher = true ∧
    (nextOf (counting 3#2 (fetched 0x00128313#32) true)).fsm.countdown ≠ 3#2 :=
  ⟨cycles_of (by decide), by decide, by decide⟩

/-- `add x7, x5, x6` as a consumer. -/
theorem witness_ForwardingPrecedence : Params.default.forwarding = true ∧
    (∃ d, recD State.reset 0x006283B3#32 = some d ∧ d.kind = .real .add) :=
  ⟨by decide, some_of (by decide)⟩
theorem test_tier_order : (recD State.reset 0x006283B3#32).map (fun d => (hazardTiers Params.default d (some ⟨5#5, 1#32, true, false⟩)
    (some ⟨5#5, 2#32, true, false⟩) (some ⟨6#5, 3#32, true, false⟩)).dn) =
    (recD State.reset 0x006283B3#32).map (fun d => { d with op1 := 1#32, op2 := 3#32 }) := by decide
theorem witness_ClaimsWithoutForwarding : ({ Params.default with forwarding := false } : Params).forwarding = false := by decide
theorem witness_X0TransientForwards : ({ Params.default with x0Transient := true } : Params).forwarding = true ∧
    (∃ d, recD State.reset 0x00000043#32 = some d ∧ d.kind = .real .fmadd ∧ d.rs1 = 0#5 ∧ d.rs2 = 0#5 ∧ d.rs3 = 0#5) ∧
    (Kind.fmadd.readsRs1 && Kind.fmadd.readsRs2 && Kind.fmadd.readsRs3) = true ∧
    (⟨0#5, 5#32, true, false⟩ : Producer).dest = 0#5 ∧
    (some (⟨5#5, 1#32, true, false⟩ : Producer)).all (fun r => !(r.writeReg && r.dest == 0#5)) = true ∧
    (transient true).Cycles (nextOf (transient true)) :=
  ⟨by decide, some_of (by decide), by decide, by decide, by decide, cycles_of (by decide)⟩
theorem test_x0_writeBack : (recD State.reset 0x00000043#32).map (fun d => (hazardTiers
    { Params.default with x0Transient := true } d none (some ⟨5#5, 1#32, true, false⟩) (some ⟨0#5, 9#32, true, false⟩)).dn.op3) =
    some 9#32 := by decide

/-! ### Counters, parameters, invariants -/

/-- A multiply in `D`. -/
def multiplying : State := flight none (recD (regs 6#32 7#32 0#32) 0x026283B3#32) none none

theorem witness_CountersOfACycle : multiplying.Cycles (nextOf multiplying) ∧
    multiplying.cycleStart.MemoryDone none Effects.nothing ∧ multiplying.e.content = none :=
  ⟨cycles_of (by decide), done_of (by decide), by decide⟩
theorem witness_CountersOfACycle_store : memSw.Cycles (nextOf memSw) ∧
    (∃ e, memSw.e.content = some e ∧ (e.readMem || e.writeMem) = true) ∧
    ∃ r, memOf memSw = some r ∧ memSw.cycleStart.MemoryDone r.1 r.2 :=
  ⟨cycles_of (by decide), some_of (by decide), _, rfl, done_of rfl⟩

/-- Call 0 in `E` on the four characters of §4, three cycles of latency for each byte. -/
def memString : State :=
  { flight none none (recE (callState 0x100#32 0#32) 0x00000073#32) none with
    mem := (callState 0x100#32 0#32).mem
    env := { Env.empty with latencies := [3, 3, 3, 3, 3] } }

theorem witness_CountersOfACycle_string : memString.Cycles (nextOf memString) ∧ memString.stringAt 0x100#32 4 ∧
    (∃ e, memString.e.content = some e ∧ (e.readMem || e.writeMem) = false ∧ e.kind = .ecall ∧ e.op2 = 0#32 ∧ e.op1 = 0x100#32 ∧
      accessOk memString.params (e.op1 + BitVec.ofNat 32 4) 1 = true ∧
      memString.mem.read (e.op1 + BitVec.ofNat 32 4).toNat = 0#8) ∧
    ∃ r, memOf memString = some r ∧ memString.cycleStart.MemoryDone r.1 r.2 :=
  ⟨cycles_of (by decide), ⟨by decide, by decide⟩, some_of (by decide), _, rfl, done_of rfl⟩
theorem test_multiply_cycle : (nextOf multiplying).counters.cycleCount = 4 := by decide
theorem test_string_cycle : (nextOf memString).counters.cycleCount = 16 := by decide
theorem witness_CountersNeverDecrease : step multiplying = .next (nextOf multiplying) ∧
    step memLoadBad = .next (nextOf memLoadBad) :=
  ⟨(cycles_of (by decide)).1, next_eq memLoadBad (by decide)⟩
theorem witness_ParametersConstant : step multiplying = .next (nextOf multiplying) ∧
    exec .ecall (callState 0#32 93#32) = .next (stateOf State.reset (exec .ecall (callState 0#32 93#32))) :=
  ⟨(cycles_of (by decide)).1, next_eq _ (by decide)⟩
theorem witness_InvariantAtReset : Memory.wf [(0x400, 0x93#8), (0xFFFFFFFF, 1#8)] = true := by decide
theorem witness_InvariantKept : loadUse.inv = true ∧ step loadUse = .next (nextOf loadUse) :=
  ⟨by decide, (cycles_of (by decide)).1⟩
theorem witness_OperandsAreCoherent : (distance1 true).inv = true ∧ (distance1 true).params.x0Transient = false ∧
    (distance1 true).Cycles (nextOf (distance1 true)) ∧ (nextOf (distance1 true)).d.content.isSome = true ∧
    (nextOf (distance1 true)).drainOlder.isSome = true :=
  ⟨by decide, by decide, cycles_of (by decide), by decide, by decide⟩

/-! ### The step and the instructions -/

theorem witness_StepExecutesPlacedWord : State.reset.status = .running ∧ State.reset.guardFails = false ∧
    State.reset.params.specFault = .deferred ∧ decodeTableWord 32 0x00A00293 = some (.addi 5#5 0#5 10#12) ∧
    (executeKind .addi Params.default (State.reset.decodeInstr State.reset.pc 0x00A00293#32 (.addi 5#5 0#5 10#12)).record).event =
      none := by decide

/-- What the three clauses ask of a state and a word. -/
def lone (s : State) (w : Word) (i : Instr) : Bool :=
  s.status == .running && s.x[0] == 0#32 && s.guardFails == false && s.params.specFault == .deferred
    && decide (decode s.params.mSet w = .ok i)

/-- A branch predicted taken and taken, placed at 0x400: fetch goes on at its target, and the next cycle makes no control
hazard (R221, R338). -/
theorem test_placed_branch : after (step (State.withFetchWord (branchState 5#32 5#32 true) 32 0x00628463)) (fun t =>
    (t.f.content.map (·.pc), t.frontPC, t.counters.controlHazardCount)) = some (some 0x408#32, 0x408#32, 0) := by decide
/-- Predicted not taken and taken: the control hazard goes to the target. -/
theorem test_placed_branch_wrong : after (step (State.withFetchWord (branchState 5#32 5#32 false) 32 0x00628463)) (fun t =>
    (t.frontPC, t.counters.controlHazardCount)) = some (0x408#32, 1) := by decide

/-- A store, an exit, a division by zero and a wait. -/
theorem witness_ThreeCyclesRunTheMeaning_next : lone storeState 0x20602023#32 (.sw 0#5 6#5 512#12) = true ∧
    after (exec (.sw 0#5 6#5 512#12) storeState) (·.status) = some .running := by decide
theorem witness_ThreeCyclesRunTheMeaning_exit : lone (callState 0#32 93#32) 0x00000073#32 .ecall = true ∧
    after (exec .ecall (callState 0#32 93#32)) (·.status) = some .exited := by decide
theorem witness_ThreeCyclesRunTheMeaning_fatal : lone (regs 7#32 0#32 0#32) 0x0262C433#32 (.div 8#5 5#5 6#5) = true ∧
    after (exec (.div 8#5 5#5 6#5) (regs 7#32 0#32 0#32)) (·.status) = some (.fatal (.divideFault .div 7#32 0#32)) := by decide
theorem witness_ThreeCyclesRunTheMeaning_waits :
    lone { callState 0#32 5#32 with env := Env.empty } 0x00000073#32 .ecall = true ∧
    faultOf (exec .ecall { callState 0#32 5#32 with env := Env.empty }) = some .awaitingConsoleInput := by decide

/-- `sw x6, 512(x0)` and four `addi x0, x0, 0` at 0x400, nothing in flight. -/
def fiveCycles : State :=
  { storeState with mem := words [] 0x400 [0x20602023#32, 0x00000013#32, 0x00000013#32, 0x00000013#32, 0x00000013#32] }

theorem witness_FiveCyclesRunTheBytesAtPC : fiveCycles.x[0] = 0#32 ∧ fiveCycles.f = Slot.empty ∧ fiveCycles.d = Slot.empty ∧
    fiveCycles.e = Slot.empty ∧ fiveCycles.m = Slot.empty ∧ fiveCycles.fsm.countdown = 0#2 ∧
    fiveCycles.fsm.forwardFetcher = false ∧ accessOk fiveCycles.params fiveCycles.pc 4 = true ∧
    decodeBytes fiveCycles.params.mSet [fiveCycles.mem.read fiveCycles.pc.toNat, fiveCycles.mem.read (fiveCycles.pc.toNat + 1),
      fiveCycles.mem.read (fiveCycles.pc.toNat + 2), fiveCycles.mem.read (fiveCycles.pc.toNat + 3)] =
        .ok (.sw 0#5 6#5 512#12, []) ∧
    ∃ s1 s2 s3 s4 s5, fiveCycles.Cycles s1 ∧ s1.Cycles s2 ∧ s2.Cycles s3 ∧ s3.Cycles s4 ∧ s4.Cycles s5 :=
  ⟨by decide, by decide, by decide, by decide, by decide, by decide, by decide, by decide, by decide, _, _, _, _, _,
    cycles_of (by decide), cycles_of (by decide), cycles_of (by decide), cycles_of (by decide), cycles_of (by decide)⟩

/-- Coherence, computed. -/
def coherentB (s : State) : Bool :=
  match s.drainOlder, s.d.content with
  | some t, some d => match d.kind with
    | .real k => (!k.readsRs1 || d.op1 == t.readReg d.rs1) && (!k.readsRs2 || d.op2 == t.readReg d.rs2)
        && (!k.readsRs3 || d.op3 == t.readReg d.rs3)
    | .poison _ => true
  | _, _ => true

theorem coherent_of {s : State} (h : coherentB s = true) : s.coherent := by
  intro t d k ht hd hk
  unfold coherentB at h
  rw [ht, hd] at h
  simp only [hk, Bool.and_eq_true, Bool.or_eq_true, Bool.not_eq_true', beq_iff_eq] at h
  refine ⟨fun h1 => ?_, fun h2 => ?_, fun h3 => ?_⟩
  · simpa [h1] using h.1.1
  · simpa [h2] using h.1.2
  · simpa [h3] using h.2

/-- A cycle that stalls and one that takes the next instruction in. -/
theorem witness_PipelineRefinesSequential_stall : loadUse.inv = true ∧ loadUse.params.x0Transient = false ∧ loadUse.coherent ∧
    loadUse.Cycles (nextOf loadUse) ∧ loadUse.drain = some (loadUse.drain.getD loadUse.arch) :=
  ⟨by decide, by decide, coherent_of (by decide), cycles_of (by decide), by decide⟩
theorem witness_PipelineRefinesSequential_moves : (distance1 true).inv = true ∧ (distance1 true).params.x0Transient = false ∧
    (distance1 true).coherent ∧ (distance1 true).Cycles (nextOf (distance1 true)) ∧
    (distance1 true).drain = some ((distance1 true).drain.getD (distance1 true).arch) :=
  ⟨by decide, by decide, coherent_of (by decide), cycles_of (by decide), by decide⟩

/-! ### When `F` and `D` are bubbles, and what `M` holds -/

theorem witness_FetchLatchesWord_holds : fetchOk.Cycles (nextOf fetchOk) ∧ fetchOk.f.stall = 0#2 ∧
    fetchOk.cycleStart.MemoryDone none Effects.nothing ∧ (nextOf fetchOk).f.content ≠ none :=
  ⟨cycles_of (by decide), by decide, done_of (by decide), by decide⟩
theorem witness_FetchLatchesWord_redirect : decodeBeq.Cycles (nextOf decodeBeq) ∧ decodeBeq.f.stall = 0#2 ∧
    decodeBeq.cycleStart.MemoryDone none Effects.nothing ∧ decodeBeq.decodedBranch.isSome = true ∧
    decodeBeq.env.drawAnswer.1 = true ∧ (nextOf decodeBeq).f.content = none :=
  ⟨cycles_of (by decide), by decide, done_of (by decide), by decide, by decide, by decide⟩
theorem witness_DecodeLatchesRecord_holds : decodeAddi.Cycles (nextOf decodeAddi) ∧ decodeAddi.d.stall = 0#2 ∧
    decodeAddi.cycleStart.MemoryDone none Effects.nothing ∧ (nextOf decodeAddi).d.content ≠ none :=
  ⟨cycles_of (by decide), by decide, done_of (by decide), by decide⟩

/-- In `E`: the load of a signed byte at 0x100 of §4, and a character read. -/
def memLb : State :=
  { flight none none (recE State.reset 0x10000283#32) none with mem := dataState.mem }
def memRead : State :=
  { flight none none (recE (callState 0#32 4#32) 0x00000073#32) none with env := { Env.empty with chars := [0x7A#8] } }

theorem witness_CycleMemory_load : memLb.Cycles (nextOf memLb) ∧ memLb.m.stall = 0#2 ∧
    ∃ e, memLb.e.content = some e ∧ e.readMem = true ∧ e.memLen = 1#3 ∧ e.signExt = true :=
  ⟨cycles_of (by decide), by decide, some_of (by decide)⟩
theorem witness_CycleMemory_read : memRead.Cycles (nextOf memRead) ∧ memRead.m.stall = 0#2 ∧
    ∃ e, memRead.e.content = some e ∧ e.readMem = false ∧ e.writeMem = false ∧ e.kind = .ecall ∧ e.op2 = 4#32 :=
  ⟨cycles_of (by decide), by decide, some_of (by decide)⟩
theorem test_memory_record : (nextOf memLb).m.content =
    some { pc := 0x400#32, kind := .lb, out := 0xFFFFFF80#32, dest := 5#5, writeReg := true, loadClass := true } := by decide
theorem test_memory_record_read : (nextOf memRead).m.content =
    some { pc := 0x400#32, kind := .ecall, out := 0x7A#32, dest := 10#5, writeReg := true, loadClass := true } := by decide

/-- Two tiers forward two registers into one consumer, and one register that two tiers could supply counts once (R354). -/
theorem test_tier_count : (recD State.reset 0x006283B3#32).map (fun d =>
    ((hazardTiers Params.default d (some ⟨5#5, 1#32, true, false⟩) (some ⟨6#5, 2#32, true, false⟩) none).fwdTiers,
     (hazardTiers Params.default d (some ⟨5#5, 1#32, true, false⟩) (some ⟨5#5, 2#32, true, false⟩) none).fwdTiers)) =
    some (2, 1) := by decide

/-- In `E`: a halfword load, a word load and an integer read. -/
def memLh : State := { flight none none (recE State.reset 0x10001283#32) none with mem := dataState.mem }
def memLw : State := { flight none none (recE State.reset 0x10002283#32) none with mem := dataState.mem }
def memReadInt : State :=
  { flight none none (recE (callState 0#32 5#32) 0x00000073#32) none with env := { Env.empty with ints := [0xFFFFFFF9#32] } }

theorem witness_CycleMemory_wide : memLh.Cycles (nextOf memLh) ∧
    (∃ e, memLh.e.content = some e ∧ e.readMem = true ∧ e.memLen = 2#3) ∧ memLw.Cycles (nextOf memLw) ∧
    ∃ e, memLw.e.content = some e ∧ e.readMem = true ∧ e.memLen = 4#3 :=
  ⟨cycles_of (by decide), some_of (by decide), cycles_of (by decide), some_of (by decide)⟩
theorem witness_CycleMemory_readInt : memReadInt.Cycles (nextOf memReadInt) ∧
    ∃ e, memReadInt.e.content = some e ∧ e.readMem = false ∧ e.writeMem = false ∧ e.kind = .ecall ∧ e.op2 = 5#32 :=
  ⟨cycles_of (by decide), some_of (by decide)⟩

end Sys2Proof.Tests
end

section
/-! SUPPORT. What one instruction run by itself can do, said once: the shapes of the Execute rules, what the Memory stage does to a
record that is no system call, and the cases of `exec`. -/

namespace Sys2Proof.Machine

/-! ### The shapes of the Execute rules -/

/-- The shapes that an Execute rule can give (R325): every fact about all fifty rules is one case per shape. -/
inductive ExOut.Shape (k : Kind) (p : Params) (d : DRec) : ExOut → Prop where
  | alu (v : Word) : Shape k p d (ExOut.alu v)
  | raise (e : FatalEvent) : Shape k p d (ExOut.raise e)
  | branch (hk : k.isBranch = true) (taken : Bool) : Shape k p d (ExOut.branch d taken)
  | jump (hk : k.isJump = true) (target : Word) : Shape k p d (ExOut.jump d target)
  | load (hk : k.isLoad = true) (n : BitVec 3) (hn : n = 1#3 ∨ n = 2#3 ∨ n = 4#3) (signed : Bool) :
      Shape k p d (ExOut.load d n signed)
  | store (hk : k.isStore = true) (n : BitVec 3) (hn : n = 1#3 ∨ n = 2#3 ∨ n = 4#3) : Shape k p d (ExOut.store d n)
  | ecall (hk : k = .ecall) : Shape k p d (exEcall p d)

/-- A division gives a value or raises (R280, R281). -/
theorem divideOut_shape (k j : Kind) (p : Params) (d : DRec) (corner : Bool) (riscV value : Word) :
    ExOut.Shape k p d (divideOut p j d corner riscV value) := by
  unfold divideOut
  split
  · split
    · exact .raise _
    · exact .alu _
  · exact .alu _

/-- The rule of each kind has one of the shapes. -/
theorem executeKind_shape (k : Kind) (p : Params) (d : DRec) : ExOut.Shape k p d (executeKind k p d) := by
  cases k with
  | jal | jalr => exact .jump rfl _
  | beq | bne | blt | bge | bltu | bgeu => exact .branch rfl _
  | lb | lbu => exact .load rfl _ (.inl rfl) _
  | lh | lhu => exact .load rfl _ (.inr (.inl rfl)) _
  | lw => exact .load rfl _ (.inr (.inr rfl)) _
  | sb => exact .store rfl _ (.inl rfl)
  | sh => exact .store rfl _ (.inr (.inl rfl))
  | sw => exact .store rfl _ (.inr (.inr rfl))
  | ecall => exact .ecall rfl
  | div | rem | divu | remu => exact divideOut_shape ..
  | _ => exact .alu _

/-- Only a branch has an outcome (R220). -/
theorem ExOut.Shape.taken_eq_none {k : Kind} {p : Params} {d : DRec} {o : ExOut} (h : ExOut.Shape k p d o)
    (hk : k.isBranch = false) : o.taken = none := by
  cases h with
  | branch hb => simp [hk] at hb
  | _ => rfl

/-! ### The Memory stage's other ends -/

variable {s t : State} {i : Instr}

/-- A system call that does not complete waits for input or reads an endless string (R243, R250). -/
theorem State.systemCall_stuck {e : ERec} {f : Fault} (h : s.systemCall e = .stuck f) :
    f = .stringNeverEnds ∨ f = .awaitingConsoleInput := by
  unfold State.systemCall at h
  split_ifs at h
  · unfold State.callPrintString at h
    split at h <;> simp_all
  · simp [State.callPrintChar] at h
  · simp [State.callPrintInt] at h
  · unfold State.callReadChar at h
    split at h <;> simp_all
  · unfold State.callReadInt at h
    split at h <;> simp_all

/-- Only a system call keeps a cycle from completing (R243, R250). -/
theorem State.memoryAccess_stuck {e : ERec} {f : Fault} (h : s.memoryAccess e = .stuck f) :
    e.kind = .ecall ∧ (f = .stringNeverEnds ∨ f = .awaitingConsoleInput) := by
  unfold State.memoryAccess at h
  split_ifs at h
  · unfold State.loadAccess at h
    split at h <;> simp at h
  · unfold State.storeAccess at h
    split at h <;> simp at h
  · exact ⟨‹_›, State.systemCall_stuck h⟩

/-- Only a system call has printed anything when its record raises an event (R243, R332). -/
theorem State.memoryAccess_fatal_printed {e : ERec} {v : FatalEvent} {printed : List OutEvent}
    (hk : e.kind ≠ .ecall) (h : s.memoryAccess e = .fatal v printed) : printed = [] := by
  unfold State.memoryAccess at h
  split_ifs at h
  · unfold State.loadAccess at h
    split at h <;> simp_all
  · unfold State.storeAccess at h
    split at h <;> simp_all

/-- Only a system call touches the console (R251, R327). -/
theorem State.memoryAccess_done_console {e : ERec} {m : MRec} {fx : Effects}
    (hk : e.kind ≠ .ecall) (h : s.memoryAccess e = .done m fx) : fx.output = [] ∧ fx.consumed = none := by
  rcases State.memoryAccess_done h with ⟨-, -, -, rfl⟩ | ⟨-, -, -, -, rfl⟩ | ⟨-, -, hc, -⟩ | ⟨-, -, -, -, rfl⟩
  · exact ⟨rfl, rfl⟩
  · exact ⟨rfl, rfl⟩
  · exact absurd hc hk
  · exact ⟨rfl, rfl⟩

/-- A store is pending only where its access is performed, so that it does not pass the top of the address space (R82, R327). -/
theorem State.memoryAccess_done_store {e : ERec} {m : MRec} {fx : Effects} {st : PendingStore}
    (h : s.memoryAccess e = .done m fx) (hst : fx.store = some st) : st.addr.toNat + st.len ≤ 2 ^ 32 := by
  rcases State.memoryAccess_done h with ⟨-, -, -, rfl⟩ | ⟨-, -, hok, -, rfl⟩ | ⟨-, -, -, hc⟩ | ⟨-, -, -, -, rfl⟩
  · cases hst
  · obtain rfl := Option.some.inj hst
    simp only [accessOk, inRange, Bool.and_eq_true, decide_eq_true_eq] at hok
    exact hok.1.1
  · simp [(State.systemCall_done hc).1] at hst
  · cases hst

/-! ### The environment's draws -/

/-- A draw of the predictor's answer leaves the console input. -/
theorem Env.drawAnswer_keeps (v : Env) : v.drawAnswer.2.chars = v.chars ∧ v.drawAnswer.2.ints = v.ints := by
  unfold Env.drawAnswer
  split <;> exact ⟨rfl, rfl⟩

/-- A draw of a latency leaves the console input and the predictor's answers. -/
theorem Env.drawLatency_keeps (v : Env) :
    v.drawLatency.2.chars = v.chars ∧ v.drawLatency.2.ints = v.ints ∧ v.drawLatency.2.answers = v.answers ∧
      v.drawLatency.2.answerDraws = v.answerDraws := by
  unfold Env.drawLatency
  split <;> exact ⟨rfl, rfl, rfl, rfl⟩

/-- So do the draws of any number of latencies. -/
theorem Env.drawLatencies_keeps (k : Nat) (v : Env) :
    (v.drawLatencies k).2.chars = v.chars ∧ (v.drawLatencies k).2.ints = v.ints ∧
      (v.drawLatencies k).2.answers = v.answers ∧ (v.drawLatencies k).2.answerDraws = v.answerDraws := by
  induction k generalizing v with
  | zero => exact ⟨rfl, rfl, rfl, rfl⟩
  | succ k ih =>
    have h := ih v.drawLatency.2
    simp only [Env.drawLatency_keeps v] at h
    exact h

/-! ### The cases of `exec` -/

/-- What Decode gives for an instruction run by itself. -/
def State.decodedAlone (s : State) (i : Instr) : Decoded := s.decodeInstr s.pc (encode i) i

/-- What its kind's rule gives at Execute. -/
def State.executedAlone (s : State) (i : Instr) : ExOut := executeKind i.kind s.params (s.decodedAlone i).record

/-- The Execute record that the Memory stage acts on. -/
def State.recordAlone (s : State) (i : Instr) : ERec := (s.executedAlone i).record i.kind (s.decodedAlone i).record

@[simp] theorem State.recordAlone_kind : (s.recordAlone i).kind = i.kind := rfl

/-- The decoded record's destination is the instruction's, predicted or not (R131). -/
@[simp] theorem State.decodeInstr_dest (pc inst : Word) : (s.decodeInstr pc inst i).record.dest = i.dest := by
  unfold State.decodeInstr
  split <;> rfl

@[simp] theorem State.recordAlone_dest : (s.recordAlone i).dest = i.dest := s.decodeInstr_dest s.pc (encode i)

/-- Decode leaves the console input. -/
theorem State.decodedAlone_env : (s.decodedAlone i).env.chars = s.env.chars ∧ (s.decodedAlone i).env.ints = s.env.ints := by
  unfold State.decodedAlone State.decodeInstr
  split
  · exact s.env.drawAnswer_keeps
  · exact ⟨rfl, rfl⟩

/-- Everything that an instruction run by itself to a next state can do: its rule raises, its access faults, it exits, or it
completes. -/
theorem exec_cases (h : exec i s = .next t) :
    (∃ v, (s.executedAlone i).event = some v ∧ t = s.raise v) ∨
    ((s.executedAlone i).event = none ∧
      ((∃ v printed, s.memoryAccess (s.recordAlone i) = .fatal v printed ∧ t = (s.emit printed).raise v) ∨
       (s.memoryAccess (s.recordAlone i) = .exit ∧ t = (s.count 0 1).exitRun) ∨
       (∃ m fx, s.memoryAccess (s.recordAlone i) = .done m fx ∧
          t = s.completeAlone i.kind (s.executedAlone i) (s.decodedAlone i) m fx))) := by
  rw [exec_eq] at h
  unfold runAlone at h
  dsimp only at h
  split at h
  · exact .inl ⟨_, ‹_›, (Host.Outcome.next.inj h).symm⟩
  · refine .inr ⟨‹_›, ?_⟩
    split at h
    · cases h
    · exact .inl ⟨_, _, ‹_›, (Host.Outcome.next.inj h).symm⟩
    · exact .inr (.inl ⟨‹_›, (Host.Outcome.next.inj h).symm⟩)
    · exact .inr (.inr ⟨_, _, ‹_›, (Host.Outcome.next.inj h).symm⟩)

end Sys2Proof.Machine
end

section
/-! SUPPORT. The frames of all instructions, the constant parameters, the ended run and the counters. -/

namespace Sys2Proof.Machine

variable {s t : State} {i : Instr}

/-! ### Registers -/

/-- `x0` reads as zero (R31). -/
@[simp] theorem State.readReg_x0 (s : State) : s.readReg 0#5 = 0#32 := rfl

/-- The exit's end shows in no read port: only `x0` is forced (R333). -/
@[simp] theorem State.exitRun_readReg (s : State) (r : RegIdx) : s.exitRun.readReg r = s.readReg r := by
  rw [← s.forceX0_readReg r]
  refine State.readReg_congr ?_ r
  unfold State.exitRun
  dsimp only
  split <;> rfl

/-- WriteBack of a record changes no register but its destination (R34, R328). -/
theorem State.writeBack_readReg_of_ne {m : MRec} {r : RegIdx} (hr : r ≠ m.dest) :
    (s.writeBack m).readReg r = s.readReg r := by
  unfold State.writeBack
  split
  · rw [State.readReg_afterSet, if_neg hr]
    split
    · simp [*]
    · rfl
  · rfl

/-- An instruction changes no register but its destination. -/
theorem exec_readReg_of_ne (h : exec i s = .next t) {r : RegIdx} (hr : r ≠ i.dest) : t.readReg r = s.readReg r := by
  rcases exec_cases h with ⟨v, -, rfl⟩ | ⟨-, ⟨v, printed, -, rfl⟩ | ⟨-, rfl⟩ | ⟨m, fx, hm, rfl⟩⟩
  · exact State.readReg_congr rfl r
  · exact State.readReg_congr rfl r
  · rw [State.exitRun_readReg]
    exact State.readReg_congr rfl r
  · have hd : m.dest = i.dest := by
      obtain ⟨-, -, hd, -, -⟩ := State.memoryAccess_keeps hm
      simpa using hd
    rw [State.readReg_congr (s.completeAlone_x _ _ _ m fx) r]
    exact State.writeBack_readReg_of_ne (hd ▸ hr)

/-! ### The rest of the state -/

/-- No instruction run by itself changes the pipeline, the stall FSM or a parameter. -/
theorem exec_pipeline (h : exec i s = .next t) :
    t.f = s.f ∧ t.d = s.d ∧ t.e = s.e ∧ t.m = s.m ∧ t.fsm = s.fsm ∧ t.params = s.params := by
  rcases exec_cases h with ⟨v, -, rfl⟩ | ⟨-, ⟨v, printed, -, rfl⟩ | ⟨-, rfl⟩ | ⟨m, fx, -, rfl⟩⟩ <;> simp

/-- The console after a completed instruction that neither prints nor reads, and the environment after its draws. -/
theorem State.completeAlone_quiet {k : Kind} {o : ExOut} {dc : Decoded} {m : MRec} {fx : Effects} (hout : fx.output = [])
    (hin : fx.consumed = none) :
    (s.completeAlone k o dc m fx).console = s.console ∧
      (s.completeAlone k o dc m fx).env = (dc.env.drawLatencies fx.accesses).2 := by
  simp [State.completeAlone, State.applyEffects, hout, hin]

/-- No instruction but ECALL touches the console or the waiting input. -/
theorem exec_console (hk : i.kind ≠ .ecall) (h : exec i s = .next t) :
    t.console = s.console ∧ t.env.chars = s.env.chars ∧ t.env.ints = s.env.ints := by
  rcases exec_cases h with ⟨v, -, rfl⟩ | ⟨-, ⟨v, printed, hm, rfl⟩ | ⟨-, rfl⟩ | ⟨m, fx, hm, rfl⟩⟩
  · exact ⟨rfl, rfl, rfl⟩
  · obtain rfl := State.memoryAccess_fatal_printed hk hm
    simp
  · simp
  · obtain ⟨hout, hin⟩ := State.memoryAccess_done_console hk hm
    obtain ⟨hcon, henv⟩ := State.completeAlone_quiet (s := s) (k := i.kind) (o := s.executedAlone i)
      (dc := s.decodedAlone i) (m := m) hout hin
    obtain ⟨hchars, hints, -, -⟩ := (s.decodedAlone i).env.drawLatencies_keeps fx.accesses
    obtain ⟨hchars', hints'⟩ := s.decodedAlone_env (i := i)
    rw [hcon, henv]
    exact ⟨rfl, hchars.trans hchars', hints.trans hints'⟩

/-- Consuming console input leaves the predictor's answers. -/
theorem State.applyEffects_answers (fx : Effects) :
    (s.applyEffects fx).env.answers = s.env.answers ∧ (s.applyEffects fx).env.answerDraws = s.env.answerDraws := by
  unfold State.applyEffects
  rcases fx.consumed with _ | (_ | _) <;> simp [State.consume]

/-- No instruction but a branch calls the predictor or moves the branch counters. -/
theorem exec_predictor (hk : i.kind.isBranch = false) (h : exec i s = .next t) :
    t.predictorLog = s.predictorLog ∧ t.env.answers = s.env.answers ∧ t.env.answerDraws = s.env.answerDraws ∧
      t.counters.branchHit = s.counters.branchHit ∧ t.counters.branchMiss = s.counters.branchMiss := by
  rcases exec_cases h with ⟨v, -, rfl⟩ | ⟨-, ⟨v, printed, -, rfl⟩ | ⟨-, rfl⟩ | ⟨m, fx, -, rfl⟩⟩
  · exact ⟨rfl, rfl, rfl, rfl, rfl⟩
  · exact ⟨rfl, rfl, rfl, rfl, rfl⟩
  · simp
  · have htaken : (s.executedAlone i).taken = none := (executeKind_shape ..).taken_eq_none hk
    have hdec : s.decodedAlone i = _ := State.decodeInstr_plain hk s.pc (encode i)
    obtain ⟨-, -, hans, hdraws⟩ := s.env.drawLatencies_keeps fx.accesses
    simp [State.completeAlone, hdec, ExOut.update, Counters.instruction, ExOut.hits, ExOut.misses, htaken,
      State.applyEffects_answers, hans, hdraws]

/-- The data and memory hazard counters belong to cycles, not to instructions. -/
theorem exec_hazardCounts (h : exec i s = .next t) :
    t.counters.dataHazardCount = s.counters.dataHazardCount ∧
      t.counters.memoryHazardCount = s.counters.memoryHazardCount := by
  rcases exec_cases h with ⟨v, -, rfl⟩ | ⟨-, ⟨v, printed, -, rfl⟩ | ⟨-, rfl⟩ | ⟨m, fx, -, rfl⟩⟩
  · exact ⟨rfl, rfl⟩
  · exact ⟨rfl, rfl⟩
  · simp
  · exact ⟨rfl, rfl⟩

/-! ### Steps -/

/-- A step keeps the parameters. -/
theorem step_params (h : step s = .next t) : t.params = s.params := by
  obtain ⟨-, ⟨-, rfl⟩ | ⟨-, ⟨v, printed, -, rfl⟩ | ⟨-, rfl⟩ | ⟨mn, fx, -, rfl⟩⟩⟩ := step_cases h
  · simp
  · simp [State.mergeMemoryFault]
  · simp [State.mergeExit]
  · unfold State.merge
    split <;> simp

/-- The merge adds to the counters whether it ends the run or not. -/
theorem State.merge_counters_le (c : CycleOut) :
    s.counters.cycleCount ≤ (s.merge c).counters.cycleCount ∧ s.counters.instCount ≤ (s.merge c).counters.instCount ∧
    s.counters.dataHazardCount ≤ (s.merge c).counters.dataHazardCount ∧
    s.counters.controlHazardCount ≤ (s.merge c).counters.controlHazardCount ∧
    s.counters.memoryHazardCount ≤ (s.merge c).counters.memoryHazardCount ∧
    s.counters.branchHit ≤ (s.merge c).counters.branchHit ∧ s.counters.branchMiss ≤ (s.merge c).counters.branchMiss := by
  unfold State.merge
  split
  · simp
  · simp only [State.complete_counters, Counters.cycle]
    omega

/-- A running step whose Memory stage waits is a fault of that stage, never `runEnded`. -/
theorem State.afterGuards_ne_runEnded (s : State) : s.afterGuards ≠ .fault .runEnded := by
  intro h
  unfold State.afterGuards at h
  split at h
  · obtain ⟨e, -, hstuck⟩ := Option.map_eq_some_iff.1 ‹_›
    obtain rfl := Host.Outcome.fault.inj h
    simpa using State.memoryAccess_stuck hstuck
  all_goals cases h

/-- A cycle that takes place is not the fault `runEnded`. -/
theorem step_ne_runEnded_of_running (hs : s.status = .running) : step s ≠ .fault .runEnded := by
  unfold step State.cycleIfRunning State.cycle
  rw [hs]
  dsimp only
  split
  · simp
  · exact State.afterGuards_ne_runEnded _

end Sys2Proof.Machine

open Sys2Proof Sys2Proof.Machine

/-- Settles O27, by the cases of `exec`. -/
theorem frameRegisters : Obligations.FrameRegisters := by
  intro i s t h
  exact ⟨fun r hr => exec_readReg_of_ne h hr, t.readReg_x0⟩

/-- Settles O29, by the cases of `exec`; that only branches have an outcome is a case per shape of the Execute rules. -/
theorem frameRest : Obligations.FrameRest := by
  intro i s t h
  exact ⟨exec_pipeline h, fun hk => exec_console hk h, fun hk => exec_predictor hk h, exec_hazardCounts h⟩

/-- Settles O51, by the cases of `step`. -/
theorem countersNeverDecrease : Obligations.CountersNeverDecrease := by
  intro s t h
  rw [← s.cycleStart_counters]
  obtain ⟨-, ⟨-, rfl⟩ | ⟨-, ⟨v, printed, -, rfl⟩ | ⟨-, rfl⟩ | ⟨mn, fx, -, rfl⟩⟩⟩ := step_cases h
  · simp
  · simp [State.mergeMemoryFault]
  · simp [State.mergeExit]
  · exact State.merge_counters_le _

/-- Settles O30: an ended run steps to `runEnded` by definition, and a running one waits, if at all, in its Memory stage. -/
theorem endedRunHasNoStep : Obligations.EndedRunHasNoStep := by
  intro s
  refine ⟨fun h hs => step_ne_runEnded_of_running hs h, fun hs => ?_⟩
  unfold step State.cycleIfRunning
  split
  · exact absurd ‹_› hs
  · rfl
  · rfl

/-- Settles O52. -/
theorem parametersConstant : Obligations.ParametersConstant := by
  refine ⟨fun s t h => step_params h, fun i s t h => ?_⟩
  obtain ⟨-, -, -, -, -, hparams⟩ := exec_pipeline h
  exact hparams

end

section
/-! SUPPORT. The invariant of the pipeline under a step: what the fields of `State.inv` say, what steps 1 and 2 leave of it, and that
each stage hands on well-made records. -/

namespace Sys2Proof.Machine

variable {s t : State}

/-! ### The invariant taken apart -/

/-- The invariant but for the forward-fetcher flag, which is only fixed while the run goes on. -/
structure State.WellMade (s : State) : Prop where
  mem : s.mem.wf = true
  x0 : s.x[0] = 0#32
  fStall : s.f.stall = 0#2
  dStall : s.d.stall = 0#2
  eStall : s.e.stall = 0#2
  mStall : s.m.stall = 0#2
  fetched : ∀ f, s.f.content = some f → s.pc = f.pc + 4#32
  decoded : ∀ d, s.d.content = some d → d.ok = true
  executed : ∀ e, s.e.content = some e → e.ok = true
  saved : s.fsm.countdown ≠ 0#2 →
    (∃ g, s.fsm.saved = some g ∧ s.fsm.restorePC = g.pc + 4#32) ∧ s.d.content = none
  held : 2 ≤ s.fsm.countdown.toNat → s.f.content = none

/-- The FSM's window, clause by clause (R370). -/
theorem State.windowOk_iff :
    s.windowOk = true ↔
      (s.fsm.countdown ≠ 0#2 → (∃ g, s.fsm.saved = some g ∧ s.fsm.restorePC = g.pc + 4#32) ∧ s.d.content = none) ∧
      (2 ≤ s.fsm.countdown.toNat → s.f.content = none) ∧
      (s.status = .running → s.fsm.forwardFetcher = (s.fsm.countdown == 3#2)) := by
  unfold State.windowOk
  cases s.fsm.saved <;> simp [or_iff_not_imp_left, and_assoc, Nat.lt_iff_add_one_le]

/-- The invariant is `WellMade` and the flag's clause. -/
theorem State.inv_iff :
    s.inv = true ↔ s.WellMade ∧ (s.status = .running → s.fsm.forwardFetcher = (s.fsm.countdown == 3#2)) := by
  unfold State.inv
  simp only [Bool.and_eq_true, beq_iff_eq, Option.all_eq_true, State.windowOk_iff, and_assoc]
  constructor
  · rintro ⟨hmem, hx, hf, hd, he, hm, hfetched, hdecoded, hexecuted, hsaved, hheld, hflag⟩
    exact ⟨⟨hmem, hx, hf, hd, he, hm, hfetched, hdecoded, hexecuted, hsaved, hheld⟩, hflag⟩
  · rintro ⟨⟨hmem, hx, hf, hd, he, hm, hfetched, hdecoded, hexecuted, hsaved, hheld⟩, hflag⟩
    exact ⟨hmem, hx, hf, hd, he, hm, hfetched, hdecoded, hexecuted, hsaved, hheld, hflag⟩

/-- A state that ends a run keeps the invariant when it keeps the pipeline, `x0` and the memory's form. -/
theorem State.WellMade.inv_of_ended (h : s.WellMade) (hrun : t.status ≠ .running) (hmem : t.mem.wf = true)
    (hx : t.x[0] = 0#32)
    (hkeep : t.f = s.f ∧ t.d = s.d ∧ t.e = s.e ∧ t.m = s.m ∧ t.fsm = s.fsm ∧ t.pc = s.pc) : t.inv = true := by
  obtain ⟨hf, hd, he, hm, hfsm, hpc⟩ := hkeep
  obtain ⟨-, -, hfs, hds, hes, hms, hfetched, hdecoded, hexecuted, hsaved, hheld⟩ := h
  rw [State.inv_iff]
  refine ⟨⟨hmem, hx, ?_, ?_, ?_, ?_, ?_, ?_, ?_, ?_, ?_⟩, fun hr => absurd hr hrun⟩ <;> simpa [hf, hd, he, hm, hfsm, hpc]

/-! ### Registers and memory -/

/-- No write reaches slot 0 of the register file (R31, R34). -/
@[simp] theorem State.writeBackStage_x0 (s : State) : s.writeBackStage.x[0] = s.x[0] := by
  rw [State.writeBackStage_x_eq]
  cases s.m.content with
  | none => rfl
  | some r =>
    simp only [Option.elim_some]
    split_ifs with _ h0
    · rfl
    · exact Vector.getElem_set_ne _ _ fun h => h0 (BitVec.eq_of_toNat_eq h)
    · rfl

/-- The exit's end forces `x0` (R333). -/
@[simp] theorem State.exitRun_x0 (s : State) : s.exitRun.x[0] = 0#32 := by
  unfold State.exitRun
  dsimp only
  split <;> simp

/-- The effects of the Memory stage keep the memory's canonical form. -/
theorem State.MemoryDone.performStore_wf {u v : State} {mn : Option MRec} {fx : Effects} (h : u.MemoryDone mn fx)
    (hmem : v.mem.wf = true) : (v.performStore fx.store).mem.wf = true := by
  cases hst : fx.store with
  | none => exact hmem
  | some st =>
    rcases h with ⟨-, -, rfl⟩ | ⟨e, m, -, hdone, -⟩
    · cases hst
    · exact Memory.wf_writeLE hmem _ (State.memoryAccess_done_store hdone hst)

/-! ### Steps 1 and 2: restore, tick or nothing, by the countdown (R320, R372, R374) -/

theorem State.restoreOrTick_of_restore (h : s.fsm.countdown = 1#2) :
    s.restoreOrTick = { s with f := { s.f with content := s.fsm.saved }, pc := s.fsm.restorePC,
                               fsm := { s.fsm with countdown := 0#2 } } := by
  simp [State.restoreOrTick, h]

theorem State.restoreOrTick_of_idle (h : s.fsm.countdown = 0#2) : s.restoreOrTick = s := by
  simp [State.restoreOrTick, h]

theorem State.restoreOrTick_of_tick (h1 : s.fsm.countdown ≠ 1#2) (h0 : s.fsm.countdown ≠ 0#2) :
    s.restoreOrTick = { s with fsm := { s.fsm with countdown := s.fsm.countdown - 1#2 } } := by
  simp [State.restoreOrTick, h1, h0]

/-- What step 1 leaves of the FSM in a running cycle (R370 to R374): at most two cycles are still to go; while any are, there
is nothing to decode; and with two to go the flag makes the fetched word a bubble. -/
structure State.Ticked (u : State) : Prop where
  lt : u.fsm.countdown ≠ 3#2
  empty : u.fsm.countdown ≠ 0#2 → u.f.content = none
  flag : u.fsm.countdown = 2#2 → u.fsm.forwardFetcher = true

/-- A countdown that step 1 only ticks is 2 or 3 (R49). -/
theorem countdown_eq_two_or_three {c : BitVec 2} (h0 : c ≠ 0#2) (h1 : c ≠ 1#2) : c = 2#2 ∨ c = 3#2 := by
  revert c
  decide

/-- Step 1 keeps a well-made state well made, and its FSM has then ticked. -/
theorem State.WellMade.restoreOrTick (h : s.WellMade) (hflag : s.fsm.forwardFetcher = (s.fsm.countdown == 3#2)) :
    s.restoreOrTick.WellMade ∧ s.restoreOrTick.Ticked := by
  by_cases h0 : s.fsm.countdown = 0#2
  · rw [State.restoreOrTick_of_idle h0]
    exact ⟨h, by simp [h0], by simp [h0], by simp [h0]⟩
  obtain ⟨⟨g, hg, hpc⟩, hd⟩ := h.saved h0
  by_cases h1 : s.fsm.countdown = 1#2
  · rw [State.restoreOrTick_of_restore h1]
    exact ⟨{ h with fetched := by simp [hg, hpc], saved := by simp, held := by simp }, by simp, by simp, by simp⟩
  · rw [State.restoreOrTick_of_tick h1 h0]
    have hc := countdown_eq_two_or_three h0 h1
    have hf : s.f.content = none := h.held (by rcases hc with hc | hc <;> simp [hc])
    refine ⟨{ h with saved := fun _ => h.saved h0, held := fun _ => hf }, ?_, fun _ => hf, ?_⟩
    · rcases hc with hc | hc <;> simp [hc]
    · rcases hc with hc | hc <;> simp [hc, hflag]

/-- Forcing `x0` keeps a well-made state well made (R321). -/
theorem State.WellMade.forceX0 (h : s.WellMade) : s.forceX0.WellMade := { h with x0 := by simp }

/-- A running cycle goes on from a well-made state whose FSM has ticked. -/
theorem State.cycleStart_wellMade (h : s.inv = true) (hrun : s.status = .running) :
    s.cycleStart.WellMade ∧ s.cycleStart.Ticked := by
  obtain ⟨hw, hflag⟩ := State.inv_iff.1 h
  obtain ⟨hw', ht⟩ := hw.restoreOrTick (hflag hrun)
  exact ⟨hw'.forceX0, { ht with }⟩

/-! ### Fetch, Decode and Execute hand on well-made records -/

/-- The fetched word stands at the address before the next one (R322, R323). -/
theorem State.fetchStage_pcNext (s : State) : s.fetchStage.pcNext = s.fetchStage.fn.pc + 4#32 := by
  unfold State.fetchStage
  split <;> rfl

/-- Only a branch is predicted taken, and it carries both targets (R219, R324). -/
theorem State.decodeInstr_ok (pc inst : Word) (i : Instr) : (s.decodeInstr pc inst i).record.ok = true := by
  unfold State.decodeInstr
  split
  · simp only [DRec.ok, DRec.predicted, State.snapshot_kind, if_pos ‹_›, Bool.and_eq_true, beq_iff_eq]
    exact ⟨trivial, rfl⟩
  · simp [DRec.ok, *]

/-- A Poison record is neither predicted taken nor a producer (R324). -/
theorem poisonRecord_ok (pc inst : Word) (e : FatalEvent) : (poisonRecord pc inst e).ok = true := rfl

/-- With a bubble in `F` there is nothing to decode. -/
theorem State.decodeStage_dn_of_none (h : s.f.content = none) : s.decodeStage.dn = none := by
  simp [State.decodeStage, h]

/-- Decode gives a well-made record. -/
theorem State.decodeStage_ok {d : DRec} (h : s.decodeStage.dn = some d) : d.ok = true := by
  unfold State.decodeStage at h
  split at h
  · cases h
  · unfold State.decodeRecord at h
    split at h
    · obtain rfl := Option.some.inj h
      exact poisonRecord_ok ..
    · split at h
      · obtain rfl := Option.some.inj h
        exact poisonRecord_ok ..
      · obtain rfl := Option.some.inj h
        exact State.decodeInstr_ok ..

/-- The record of each shape of Execute rule is well made (R325). -/
theorem ExOut.Shape.record_ok {k : Kind} {p : Params} {d : DRec} {o : ExOut} (h : ExOut.Shape k p d o) :
    (o.record k d).ok = true := by
  cases h with
  | alu | raise | branch | jump => rfl
  | load _ n hn | store _ n hn => rcases hn with rfl | rfl | rfl <;> rfl
  | ecall =>
    simp only [exEcall, ExOut.empty, ExOut.record, ERec.ok]
    cases decide (d.op2 = 4#32) || decide (d.op2 = 5#32) <;> rfl

/-- Execute gives a well-made record. -/
theorem State.executeStage_ok {e : ERec} (h : s.executeStage.en = some e) : e.ok = true := by
  unfold State.executeStage at h
  split at h
  · cases h
  · unfold executeRecord at h
    split at h
    · cases h
    · dsimp only at h
      split at h
      · cases h
      · obtain rfl := Option.some.inj h
        exact (executeKind_shape ..).record_ok

/-! ### The hazard logic -/

/-- Forwarding supplies operands only, which `DRec.ok` does not speak of (R354). -/
@[simp] theorem DRec.forward_ok (d : DRec) (r : RegIdx) (v : Word) : (d.forward r v).ok = d.ok := by
  unfold DRec.forward
  split
  · rfl
  · simp [DRec.ok, *]

/-- A claim leaves the consumer. -/
@[simp] theorem Hazard.claims_dn (h : Hazard) (n : BitVec 2) (p : Producer) : (h.claims n p).dn = h.dn := by
  unfold Hazard.claims
  split <;> rfl

/-- A tier leaves the consumer or forwards to it. -/
theorem Hazard.tier1_dn (h : Hazard) (par : Params) (p : Producer) :
    (h.tier1 par p).dn = h.dn ∨ (h.tier1 par p).dn = h.dn.forward p.dest p.value := by
  unfold Hazard.tier1 Hazard.forward
  split_ifs <;> simp

theorem Hazard.tierLater_dn (h : Hazard) (par : Params) (n : BitVec 2) (p : Producer) :
    (h.tierLater par n p).dn = h.dn ∨ (h.tierLater par n p).dn = h.dn.forward p.dest p.value := by
  unfold Hazard.tierLater Hazard.forward
  split_ifs <;> simp

/-- A tier that leaves the consumer or forwards to it keeps it well made, with a producer or without one. -/
theorem Hazard.optional_ok (h : Hazard) {tier : Hazard → Params → Producer → Hazard} (par : Params)
    (htier : ∀ p, (tier h par p).dn = h.dn ∨ (tier h par p).dn = h.dn.forward p.dest p.value) (q : Option Producer) :
    (h.optional tier par q).dn.ok = h.dn.ok := by
  cases q with
  | none => rfl
  | some p => rcases htier p with hp | hp <;> simp [Hazard.optional, hp]

/-- The three tiers keep the consumer well made. -/
theorem hazardTiers_ok (par : Params) (d : DRec) (p1 p2 p3 : Option Producer) :
    (hazardTiers par d p1 p2 p3).dn.ok = d.ok := by
  unfold hazardTiers
  rw [Hazard.optional_ok _ par (fun p => Hazard.tierLater_dn _ par 1#2 p),
    Hazard.optional_ok _ par (fun p => Hazard.tierLater_dn _ par 2#2 p),
    Hazard.optional_ok _ par (fun p => Hazard.tier1_dn _ par p)]

/-- Without a consumer the hazard logic gives none and claims nothing (R350, R362). -/
theorem hazardLogic_none (par : Params) (en : Option ERec) (mn m : Option MRec) :
    hazardLogic par none en mn m = { dn := none, claim := none, fwdTiers := 0 } := rfl

/-- The hazard logic hands on a well-made consumer. -/
theorem hazardLogic_ok {par : Params} {dn : Option DRec} {en : Option ERec} {mn m : Option MRec}
    (hdn : ∀ d, dn = some d → d.ok = true) {d : DRec} (h : (hazardLogic par dn en mn m).dn = some d) : d.ok = true := by
  cases dn with
  | none => cases h
  | some d0 =>
    obtain rfl := Option.some.inj h
    exact (hazardTiers_ok ..).trans (hdn d0 rfl)

/-! ### Steps 4 to 8 -/

/-- Commit marks no register stalled (R46, R334). -/
theorem Slot.commit_stall {α : Type} {r : Slot α} (next : Option α) (h : r.stall = 0#2) : (r.commit next).stall = 0#2 := by
  simp [Slot.commit, h]

@[simp] theorem Slot.bubbleIf_stall {α : Type} (c : Bool) (r : Slot α) : (r.bubbleIf c).stall = r.stall := by
  cases c <;> rfl

variable {u : State} {mn : Option MRec} {fx : Effects}

/-- With nothing to decode, the cycle has no consumer and no claim. -/
theorem State.stages_haz_of_empty (h : u.f.content = none) :
    (u.stages mn fx).haz = { dn := none, claim := none, fwdTiers := 0 } := by
  change hazardLogic u.params u.decodeStage.dn _ mn _ = _
  rw [State.decodeStage_dn_of_none h, hazardLogic_none]

/-- A claim is made for a fetched record. -/
theorem State.stages_claim_fetched {q : Claim} (h : (u.stages mn fx).haz.claim = some q) :
    ∃ g, u.f.content = some g := by
  refine Option.ne_none_iff_exists'.1 fun hf => ?_
  simp [State.stages_haz_of_empty hf] at h

/-- The record in `F` after a completed cycle is the one fetched, no control hazard and no redirect having moved `pc` (R37). -/
theorem State.complete_fetched (hstall : u.f.stall = 0#2) {f : FRec}
    (h : (u.complete (u.stages mn fx)).f.content = some f) : (u.complete (u.stages mn fx)).pc = f.pc + 4#32 := by
  simp only [State.complete_f, State.nextF, Slot.bubbleIf_content, Slot.commit_content _ hstall, Option.ite_none_left_eq_some,
    Bool.not_eq_true, Bool.or_eq_false_iff, Option.isSome_eq_false_iff, Option.isNone_iff_eq_none] at h
  obtain ⟨⟨⟨-, hctrl⟩, hredirect⟩, hfn⟩ := h
  obtain rfl := Option.some.inj hfn
  rw [State.complete_pc, hctrl, hredirect]
  exact u.fetchStage_pcNext

/-- A control hazard stands the FSM down (R375). -/
theorem State.nextFsm_of_hazard {c : CycleOut} {target : Word} (h : c.exe.ctrl = some target) :
    (u.nextFsm c).countdown = 0#2 ∧ (u.nextFsm c).forwardFetcher = false := by
  simp [State.nextFsm, StallFsm.standDown, h]

/-- Without a control hazard a claim arms it (R371). -/
theorem State.nextFsm_of_claim {c : CycleOut} {q : Claim} (hctrl : c.exe.ctrl = none) (h : c.haz.claim = some q) :
    u.nextFsm c =
      { countdown := q.length, saved := u.f.content, restorePC := u.pc, forwardFetcher := q.length == 3#2 } := by
  simp [State.nextFsm, StallFsm.standDown, StallFsm.arm, StallFsm.consumeFlag, hctrl, h]

/-- With neither, it only consumes its flag (R373). -/
theorem State.nextFsm_of_none {c : CycleOut} (hctrl : c.exe.ctrl = none) (h : c.haz.claim = none) :
    u.nextFsm c = { u.fsm with forwardFetcher := false } := by
  simp [State.nextFsm, StallFsm.standDown, StallFsm.arm, StallFsm.consumeFlag, hctrl, h]

/-- `D` after a completed cycle is a bubble on a claim (R371). -/
theorem State.nextD_of_claim {c : CycleOut} {q : Claim} (h : c.haz.claim = some q) : (u.nextD c).content = none := by
  simp [State.nextD, h]

/-- The FSM's window after a completed cycle: a new one on a claim, whose record is the one decoded in vain; else what step 1
left of the old one, with nothing decoded and, with two cycles to go, nothing fetched (R370 to R375). -/
theorem State.complete_windowOk (hw : u.WellMade) (ht : u.Ticked) :
    (u.complete (u.stages mn fx)).windowOk = true := by
  rw [State.windowOk_iff]
  simp only [State.complete_fsm, State.complete_d, State.complete_f]
  cases hctrl : (u.stages mn fx).exe.ctrl with
  | some target =>
    obtain ⟨hcount, hflag⟩ := State.nextFsm_of_hazard (u := u) hctrl
    simp [hcount, hflag]
  | none =>
    cases hclaim : (u.stages mn fx).haz.claim with
    | some q =>
      obtain ⟨g, hg⟩ := State.stages_claim_fetched hclaim
      rw [State.nextFsm_of_claim hctrl hclaim]
      refine ⟨fun _ => ⟨⟨g, hg, hw.fetched g hg⟩, State.nextD_of_claim hclaim⟩, fun hlen => ?_, fun _ => rfl⟩
      simp [State.nextF, claimBubblesF, hclaim, hlen]
    | none =>
      rw [State.nextFsm_of_none hctrl hclaim]
      refine ⟨fun hcount => ⟨(hw.saved hcount).1, ?_⟩, fun hcount => ?_, fun _ => ?_⟩
      · simp [State.nextD, Slot.commit_content _ hw.dStall, State.stages_haz_of_empty (ht.empty hcount)]
      · have htwo : u.fsm.countdown = 2#2 := by
          have hlt := ht.lt
          generalize u.fsm.countdown = k at hcount hlt
          revert k
          decide
        simp [State.nextF, ht.flag htwo]
      · simpa using ht.lt

/-- A completed cycle keeps the invariant. -/
theorem State.complete_inv (hw : u.WellMade) (ht : u.Ticked) (hm : u.MemoryDone mn fx) :
    (u.complete (u.stages mn fx)).inv = true := by
  obtain ⟨hsaved, hheld, hflag⟩ := State.windowOk_iff.1 (State.complete_windowOk (mn := mn) (fx := fx) hw ht)
  refine State.inv_iff.2 ⟨⟨?_, ?_, ?_, ?_, ?_, ?_, fun f hf => ?_, fun d hd => ?_, fun e he => ?_, hsaved, hheld⟩, hflag⟩
  · rw [State.complete_mem]
    exact hm.performStore_wf hw.mem
  · rw [State.complete_x, State.writeBackStage_x0, hw.x0]
  · simpa [State.nextF] using Slot.commit_stall _ hw.fStall
  · simpa [State.nextD] using Slot.commit_stall _ hw.dStall
  · exact Slot.commit_stall _ hw.eStall
  · exact Slot.commit_stall _ hw.mStall
  · exact State.complete_fetched hw.fStall hf
  · have hdn : (u.stages mn fx).haz.dn = some d := by
      rw [State.complete_d, State.nextD, Slot.bubbleIf_content, Slot.commit_content _ hw.dStall] at hd
      exact (Option.ite_none_left_eq_some.1 hd).2
    exact hazardLogic_ok (fun d0 h0 => State.decodeStage_ok h0) hdn
  · rw [State.complete_e, Slot.commit_content _ hw.eStall] at he
    exact State.executeStage_ok he

/-- The merge keeps the invariant, whether it completes the cycle or ends the run (R331, R332). -/
theorem State.merge_inv (hw : u.WellMade) (ht : u.Ticked) (hm : u.MemoryDone mn fx) :
    (u.merge (u.stages mn fx)).inv = true := by
  unfold State.merge
  split
  · have hmem : (u.writeBackStage.performStore fx.store).mem.wf = true := hm.performStore_wf (by simpa using hw.mem)
    exact hw.inv_of_ended (by simp) (by simpa [State.stages] using hmem) (by simpa using hw.x0) (by simp)
  · exact State.complete_inv hw ht hm

end Sys2Proof.Machine

open Sys2Proof Sys2Proof.Machine

/-- Settles O55: steps 1 and 2 leave a well-made state whose FSM has ticked, and from there each case of `step` gives back the
invariant, the ends of a run because they keep the pipeline. -/
theorem invariantKept : Obligations.InvariantKept := by
  intro s t h hstep
  obtain ⟨hrun, hcases⟩ := step_cases hstep
  obtain ⟨hw, ht⟩ := State.cycleStart_wellMade h hrun
  rcases hcases with ⟨-, rfl⟩ | ⟨-, ⟨v, printed, -, rfl⟩ | ⟨-, rfl⟩ | ⟨mn, fx, hm, rfl⟩⟩
  · exact hw.inv_of_ended (by simp) hw.mem hw.x0 (by simp)
  · unfold State.mergeMemoryFault
    exact hw.inv_of_ended (by simp) (by simpa using hw.mem) (by simp) (by simp)
  · unfold State.mergeExit
    exact hw.inv_of_ended (State.exitRun_not_running _) (by simpa using hw.mem) (by simp) (by simp)
  · exact State.merge_inv hw ht hm

end

section
/-! SUPPORT. Memory accesses: the bytes that a store writes and a read assembles (R83), and when an access is performed
(R82, R85). -/

namespace Sys2Proof.Machine

/-! ### The bytes of a store -/

/-- Byte `i` of a word shifted down by one byte is byte `i + 1` of the word. -/
theorem extractLsb'_ushiftRight_byte (v : Word) (i : Nat) :
    (v >>> 8).extractLsb' (8 * i) 8 = v.extractLsb' (8 * (i + 1)) 8 := by
  ext j hj
  simp only [BitVec.getElem_extractLsb', BitVec.getLsbD_ushiftRight]
  congr 1
  omega

/-- A byte read after a store of `n` bytes (R83): the bytes of the value at rising addresses, and every other byte as it was. -/
theorem Memory.read_writeLE {m : Memory} (hm : m.wf = true) {a n : Nat} (v : Word) (ha : a + n ≤ 2 ^ 32) (b : Nat) :
    (m.writeLE a n v).read b = if a ≤ b ∧ b < a + n then v.extractLsb' (8 * (b - a)) 8 else m.read b := by
  induction n generalizing m a v with
  | zero =>
    rw [if_neg (by omega)]
    rfl
  | succ n ih =>
    rw [Memory.writeLE, ih (Memory.wf_write hm _ (by omega)) _ (by omega), Memory.read_write hm]
    rcases Nat.lt_trichotomy b a with h | rfl | h
    · rw [if_neg (by omega), if_neg (by omega), if_neg (by omega)]
    · rw [if_neg (by omega), if_pos rfl, if_pos (by omega), Nat.sub_self]
    · by_cases hn : b < a + (n + 1)
      · rw [if_pos (by omega), if_pos (by omega), extractLsb'_ushiftRight_byte]
        congr 2
        omega
      · rw [if_neg (by omega), if_neg (by omega), if_neg (by omega)]

/-! ### The bytes of a read -/

/-- One step of a little-endian read puts its byte below the bytes read after it. -/
theorem putField_or_shiftLeft {k : Nat} (x : BitVec k) (b : Byte) :
    putField 32 b 0 ||| (x.setWidth 32 <<< 8) = (x ++ b).setWidth 32 := by
  ext i hi
  simp only [putField, BitVec.getElem_or, BitVec.getElem_shiftLeft, BitVec.getElem_setWidth, BitVec.getLsbD_append]
  by_cases h : i < 8
  · simp [h]
  · simp [h, BitVec.getLsbD_of_ge b i (by omega)]

variable (m : Memory) (a : Nat)

theorem Memory.readLE_one : m.readLE a 1 = (m.read a).setWidth 32 := by
  simp [Memory.readLE, putField]

theorem Memory.readLE_two : m.readLE a 2 = (m.read (a + 1) ++ m.read a).setWidth 32 := by
  rw [Memory.readLE, Memory.readLE_one, putField_or_shiftLeft]

theorem Memory.readLE_four :
    m.readLE a 4 = m.read (a + 3) ++ m.read (a + 2) ++ m.read (a + 1) ++ m.read a := by
  rw [Memory.readLE, Memory.readLE, Memory.readLE_two, putField_or_shiftLeft, putField_or_shiftLeft, BitVec.setWidth_eq]

/-! ### Accesses -/

/-- Fetch latches the word at `pc` when its access is performed (R322). -/
theorem State.fetchStage_inst {s : State} (h : accessOk s.params s.pc 4 = true) :
    s.fetchStage.fn.inst = s.mem.readLE s.pc.toNat 4 := by
  simp [State.fetchStage, State.memRead, h]

/-- A byte address exists when one of the ranges holds it (R82). -/
theorem inRangeByte_iff {p : Params} {a : Nat} :
    inRangeByte p a = true ↔ ∃ r ∈ p.ranges, r.base ≤ a ∧ a < r.base + r.size := by
  simp [inRangeByte]

/-- When an access is performed (R82, R85). -/
theorem accessOk_iff {p : Params} {addr : Word} {n : Nat} :
    accessOk p addr n = true ↔ addr.toNat + n ≤ 2 ^ 32 ∧ (∀ k < n, inRangeByte p (addr.toNat + k) = true) ∧
      (p.misaligned = .byteWise ∨ addr.toNat % n = 0) := by
  simp only [accessOk, inRange, aligned, Bool.and_eq_true, Bool.or_eq_true, decide_eq_true_eq, List.all_eq_true,
    List.mem_range, and_assoc]

end Sys2Proof.Machine

open Sys2Proof Sys2Proof.Machine

/-- Settles O7: the store by induction on its bytes, the reads and the fetch by what each byte adds to the word. -/
theorem memoryLittleEndian : Obligations.MemoryLittleEndian := by
  refine ⟨fun m a n v hm ha _ b => Memory.read_writeLE hm v ha b, fun m a => ⟨?_, ?_, m.readLE_four a⟩, fun s h => ?_⟩
  · rw [Memory.readLE_one, BitVec.setWidth_eq_append (by decide)]
    rfl
  · rw [Memory.readLE_two, BitVec.setWidth_eq_append (by decide)]
    exact (BitVec.append_assoc ..).symm
  · rw [State.fetchStage_inst h, Memory.readLE_four]

/-- Settles O18. -/
theorem accessPerformedWhen : Obligations.AccessPerformedWhen := by
  intro p addr n
  simp only [accessOk_iff, inRangeByte_iff]

end

section
/-! SUPPORT. The memory frame of one instruction run by itself: only a store has a pending store, and it writes at its effective
address (R88, R89, R202). -/

namespace Sys2Proof.Machine

/-- The width in bytes of a store kind (R196 to R198). -/
def storeLen : Kind → BitVec 3
  | .sb => 1#3
  | .sh => 2#3
  | _ => 4#3

theorem storeLen_toNat (k : Kind) : (storeLen k).toNat = if k = .sb then 1 else if k = .sh then 2 else 4 := by
  cases k <;> rfl

/-- The rule of a store kind is a store of its width (R202). -/
theorem executeKind_store {k : Kind} (hk : k.isStore = true) (p : Params) (d : DRec) :
    executeKind k p d = ExOut.store d (storeLen k) := by
  cases k with
  | sb | sh | sw => rfl
  | _ => cases hk

/-- Only a store's record writes memory (R325). -/
theorem ExOut.Shape.writeMem_eq_false {k : Kind} {p : Params} {d : DRec} {o : ExOut} (h : ExOut.Shape k p d o)
    (hk : k.isStore = false) : o.writeMem = false := by
  cases h with
  | store hs => simp [hk] at hs
  | _ => rfl

/-- A store kind is no branch and has no multiply penalty (R132). -/
theorem classes_of_isStore {k : Kind} (hk : k.isStore = true) : k.isBranch = false ∧ k.isMulPenalty = false := by
  cases k with
  | sb | sh | sw => exact ⟨rfl, rfl⟩
  | _ => cases hk

variable {s t : State} {i : Instr} {e : ERec} {m : MRec} {fx : Effects}

/-- The Memory stage's pending store (R202, R327): the value of a record that writes memory and does not read it, at its address;
no other record has one. -/
theorem State.memoryAccess_done_store_eq (h : s.memoryAccess e = .done m fx) :
    fx.store = if e.readMem = false ∧ e.writeMem = true then
      some { addr := e.out, len := e.memLen.toNat, value := e.op2 } else none := by
  rcases State.memoryAccess_done h with ⟨hr, -, -, rfl⟩ | ⟨hr, hw, -, -, rfl⟩ | ⟨-, hw, -, hc⟩ | ⟨-, hw, -, -, rfl⟩
  · simp [hr, Effects.nothing]
  · simp [hr, hw]
  · simp [hw, (State.systemCall_done hc).1]
  · simp [hw, Effects.nothing]

/-- No instruction but a store changes memory. -/
theorem exec_mem_of_not_store (hk : i.kind.isStore = false) (h : exec i s = .next t) : t.mem = s.mem := by
  rcases exec_cases h with ⟨v, -, rfl⟩ | ⟨-, ⟨v, printed, -, rfl⟩ | ⟨-, rfl⟩ | ⟨m, fx, hm, rfl⟩⟩
  · rfl
  · rfl
  · simp
  · have hw : (s.recordAlone i).writeMem = false := (executeKind_shape ..).writeMem_eq_false hk
    have hst : fx.store = none := by simpa [hw] using State.memoryAccess_done_store_eq hm
    rw [State.completeAlone_mem, hst, State.performStore_none]

/-- A store leaves memory, where its access is not performed, or writes the bytes of its width at its address (R200, R202). -/
theorem exec_mem_of_store (hk : i.kind.isStore = true) (h : exec i s = .next t) :
    t.mem = s.mem ∨ (accessOk s.params (s.readReg i.rs1 + i.imm) (storeLen i.kind).toNat = true ∧
      t.mem = s.mem.writeLE (s.readReg i.rs1 + i.imm).toNat (storeLen i.kind).toNat (s.readReg i.rs2)) := by
  obtain ⟨hb, hp⟩ := classes_of_isStore hk
  rw [exec_eq] at h
  cases hok : accessOk s.params (s.readReg i.rs1 + i.imm) (storeLen i.kind).toNat with
  | false =>
    rw [runAlone_store_fault hb (executeKind_store hk ..) hok] at h
    obtain rfl := Host.Outcome.next.inj h
    exact .inl rfl
  | true =>
    rw [runAlone_store hb hp (executeKind_store hk ..) hok] at h
    obtain rfl := Host.Outcome.next.inj h
    exact .inr ⟨rfl, rfl⟩

end Sys2Proof.Machine

open Sys2Proof Sys2Proof.Machine

/-- Settles O28: a store by the bytes it writes, every other kind because it has no pending store. -/
theorem frameMemory : Obligations.FrameMemory := by
  intro i s t hwf h a
  refine ⟨fun hk ha => ?_, fun hk => by rw [exec_mem_of_not_store hk h]⟩
  rw [← storeLen_toNat] at ha
  obtain hmem | ⟨hok, hmem⟩ := exec_mem_of_store hk h
  · rw [hmem]
  · obtain ⟨htop, -, -⟩ := accessOk_iff.1 hok
    rw [hmem, Memory.read_writeLE hwf _ htop, if_neg (by omega)]

end

section
/-! SUPPORT. What a completed cycle makes of the record in `E` (R327, R331, R334): its store, the record that `M` latches and the
console input it consumes. -/

namespace Sys2Proof.Machine

/-! ### The value of a load -/

variable (mem : Memory) (a : Nat) (signed : Bool)

theorem extendLoad_readLE_one :
    extendLoad (mem.readLE a 1) 1 signed = if signed then (mem.read a).signExtend 32 else (mem.read a).setWidth 32 := by
  simp [extendLoad, Memory.readLE_one]

theorem extendLoad_readLE_two :
    extendLoad (mem.readLE a 2) 2 signed = if signed then (mem.read (a + 1) ++ mem.read a).signExtend 32
      else (mem.read (a + 1) ++ mem.read a).setWidth 32 := by
  simp [extendLoad, Memory.readLE_two]

theorem extendLoad_readLE_four :
    extendLoad (mem.readLE a 4) 4 signed = mem.read (a + 3) ++ mem.read (a + 2) ++ mem.read (a + 1) ++ mem.read a := by
  simp [extendLoad, Memory.readLE_four]

/-! ### The waiting console input in a cycle -/

variable {s t u : State} {e : ERec} {m : MRec} {fx : Effects}

/-- Decode leaves the console input. -/
theorem State.decodeInstr_env (pc inst : Word) (i : Instr) :
    (s.decodeInstr pc inst i).env.chars = s.env.chars ∧ (s.decodeInstr pc inst i).env.ints = s.env.ints := by
  unfold State.decodeInstr
  split
  · exact s.env.drawAnswer_keeps
  · exact ⟨rfl, rfl⟩

theorem State.decodeStage_env : s.decodeStage.env.chars = s.env.chars ∧ s.decodeStage.env.ints = s.env.ints := by
  unfold State.decodeStage
  split
  · exact ⟨rfl, rfl⟩
  · unfold State.decodeRecord
    split
    · exact ⟨rfl, rfl⟩
    · split
      · exact ⟨rfl, rfl⟩
      · exact State.decodeInstr_env ..

/-- The waiting input after the effects of the Memory stage, from a state with the same input waiting. -/
theorem State.applyEffects_input (hchars : u.env.chars = s.env.chars) (hints : u.env.ints = s.env.ints) :
    (u.applyEffects fx).env.chars = (s.consume fx.consumed).env.chars ∧
      (u.applyEffects fx).env.ints = (s.consume fx.consumed).env.ints := by
  unfold State.applyEffects
  rcases fx.consumed with _ | (_ | _) <;> simp [State.consume, hchars, hints]

/-- Of the waiting input, a completed cycle takes what its Memory stage consumes (R251, R331). -/
theorem State.complete_input (henv : u.env = s.env) (mn : Option MRec) :
    (u.complete (u.stages mn fx)).env.chars = (s.consume fx.consumed).env.chars ∧
      (u.complete (u.stages mn fx)).env.ints = (s.consume fx.consumed).env.ints := by
  obtain ⟨hchars, hints, -, -⟩ := u.decodeStage.env.drawLatencies_keeps fx.accesses
  obtain ⟨hchars', hints'⟩ := u.decodeStage_env
  rw [henv] at hchars' hints'
  exact State.applyEffects_input (by simpa [State.stages] using hchars.trans hchars')
    (by simpa [State.stages] using hints.trans hints')

/-! ### A completed cycle, by the content of `E` -/

/-- With a bubble in `E`, memory stays and `M` takes a bubble (R45, R327). -/
theorem State.Cycles.of_bubble (h : s.Cycles t) (he : s.e.content = none) :
    t.mem = s.mem ∧ (s.m.stall = 0#2 → t.m.content = none) := by
  obtain ⟨-, -, mn, fx, hm, -, rfl⟩ := h.cases
  obtain ⟨rfl, rfl⟩ := hm.unique (.inl ⟨by simpa using he, rfl, rfl⟩)
  refine ⟨by simp [State.stages, Effects.nothing], fun hstall => ?_⟩
  rw [State.complete_m, Slot.commit_content _ (by simpa using hstall)]
  rfl

/-- With a record in `E`, its Memory stage ends without an event: the cycle performs its store, `M` takes its Memory record, and
the input that it consumes is gone. -/
theorem State.Cycles.of_record (h : s.Cycles t) (he : s.e.content = some e) :
    ∃ m fx, s.cycleStart.memoryAccess e = .done m fx ∧ t.mem = (s.performStore fx.store).mem ∧
      (s.m.stall = 0#2 → t.m.content = some m) ∧ t.env.chars = (s.consume fx.consumed).env.chars ∧
      t.env.ints = (s.consume fx.consumed).env.ints := by
  obtain ⟨-, -, mn, fx, ⟨he', -, -⟩ | ⟨e', m, he', hdone, rfl⟩, -, rfl⟩ := h.cases
  · simp [he] at he'
  · obtain rfl : e = e' := by simpa [he] using he'
    refine ⟨m, fx, hdone, ?_, fun hstall => ?_, State.complete_input s.cycleStart_env (some m)⟩
    · rw [State.complete_mem]
      cases hst : fx.store <;> simp [State.stages, hst]
    · rw [State.complete_m, Slot.commit_content _ (by simpa using hstall)]
      rfl

/-- A store in `E` has its access performed and its bytes in memory after the cycle (R202, R331). -/
theorem State.Cycles.store (h : s.Cycles t) (he : s.e.content = some e) (hr : e.readMem = false) (hw : e.writeMem = true) :
    accessOk s.params e.out e.memLen.toNat = true ∧ t.mem = s.mem.writeLE e.out.toNat e.memLen.toNat e.op2 := by
  obtain ⟨m, fx, hdone, hmem, -⟩ := h.of_record he
  obtain ⟨hr', -⟩ | ⟨-, -, hok, -, rfl⟩ | ⟨-, hw', -⟩ | ⟨-, hw', -⟩ := State.memoryAccess_done hdone
  · simp [hr] at hr'
  · exact ⟨by simpa using hok, hmem⟩
  · simp [hw] at hw'
  · simp [hw] at hw'

/-- A cycle whose record in `E`, if any, does not write memory leaves it (R89). -/
theorem State.Cycles.mem_eq (h : s.Cycles t) (hw : ∀ e, s.e.content = some e → e.writeMem = false) : t.mem = s.mem := by
  cases he : s.e.content with
  | none => exact (h.of_bubble he).1
  | some e =>
    obtain ⟨m, fx, hdone, hmem, -⟩ := h.of_record he
    have hst : fx.store = none := by simpa [hw e he] using State.memoryAccess_done_store_eq hdone
    rw [hmem, hst, State.performStore_none]

/-! ### The value of the Memory record -/

/-- A load hands on the extended value of its bytes (R88, R201). -/
theorem State.memoryAccess_done_load (h : s.memoryAccess e = .done m fx) (hr : e.readMem = true) :
    accessOk s.params e.out e.memLen.toNat = true ∧
      m.out = extendLoad (s.mem.readLE e.out.toNat e.memLen.toNat) e.memLen.toNat e.signExt := by
  rcases State.memoryAccess_done h with ⟨-, hok, rfl, -⟩ | ⟨hr', -⟩ | ⟨hr', -⟩ | ⟨hr', -⟩
  · exact ⟨hok, rfl⟩
  all_goals simp [hr] at hr'

/-- Calls 4 and 5 hand on the oldest waiting input and consume it (R247, R248). -/
theorem State.systemCall_done_input (h : s.systemCall e = .done m fx) :
    (e.op2 = 4#32 → ∃ c rest, s.env.chars = c :: rest ∧ fx.consumed = some (.char c) ∧ m.out = c.setWidth 32) ∧
    (e.op2 = 5#32 → ∃ n rest, s.env.ints = n :: rest ∧ fx.consumed = some (.int n) ∧ m.out = n) := by
  rcases (State.systemCall_done h).2 with ⟨hop, -⟩ | ⟨hop, -⟩ | ⟨hop, -⟩ | ⟨c, rest, hop, hc, rfl, rfl⟩ |
    ⟨n, rest, hop, hn, rfl, rfl⟩
  · simp [hop]
  · simp [hop]
  · simp [hop]
  · exact ⟨fun _ => ⟨c, rest, hc, rfl, rfl⟩, by simp [hop]⟩
  · exact ⟨by simp [hop], fun _ => ⟨n, rest, hn, rfl, rfl⟩⟩

/-- Every other record hands on what Execute computed (R327). -/
theorem State.memoryAccess_done_out (h : s.memoryAccess e = .done m fx) (hr : e.readMem = false)
    (hk : e.writeMem = true ∨ e.kind ≠ .ecall ∨ (e.op2 ≠ 4#32 ∧ e.op2 ≠ 5#32)) : m.out = e.out := by
  rcases State.memoryAccess_done h with ⟨hr', -⟩ | ⟨-, -, -, rfl, -⟩ | ⟨-, hw, hecall, hc⟩ | ⟨-, -, -, rfl, -⟩
  · simp [hr] at hr'
  · rfl
  · obtain ⟨h4, h5⟩ : e.op2 ≠ 4#32 ∧ e.op2 ≠ 5#32 := by simpa [hw, hecall] using hk
    rcases (State.systemCall_done hc).2 with ⟨-, rfl, -⟩ | ⟨-, rfl, -⟩ | ⟨-, rfl, -⟩ | ⟨_, _, hop, -⟩ | ⟨_, _, hop, -⟩
    · rfl
    · rfl
    · rfl
    · exact absurd hop h4
    · exact absurd hop h5
  · rfl

end Sys2Proof.Machine

open Sys2Proof Sys2Proof.Machine

/-- Settles O36: a completed cycle performs the store of the record in `E` and latches its Memory record, whose value is a load's,
a read call's, or else Execute's. -/
theorem cycleMemory : Obligations.CycleMemory := by
  refine ⟨fun s t h hwf => ⟨fun e he hr hw => ?_, h.mem_eq⟩, fun s t h hstall =>
    ⟨fun he => (h.of_bubble he).2 hstall, fun e he => ?_⟩⟩
  · obtain ⟨hok, hmem⟩ := h.store he hr hw
    refine ⟨hok, fun _ a => ?_⟩
    rw [hmem]
    exact Memory.read_writeLE hwf _ (accessOk_iff.1 hok).1 a
  · obtain ⟨m, fx, hdone, -, hlatch, hchars, hints⟩ := h.of_record he
    obtain ⟨hpc, hkind, hdest, hwrite, hclass⟩ := State.memoryAccess_keeps hdone
    refine ⟨m, hlatch hstall, hpc, hkind, hdest, hwrite, hclass, fun hr => ?_, fun hr hw hk => ?_,
      State.memoryAccess_done_out hdone⟩
    · obtain ⟨hok, hout⟩ := State.memoryAccess_done_load hdone hr
      simp only [State.cycleStart_params, State.cycleStart_mem] at hok hout
      refine ⟨hok, fun hlen => ?_, fun hlen => ?_, fun hlen => ?_⟩ <;> rw [hout, hlen]
      · exact extendLoad_readLE_one ..
      · exact extendLoad_readLE_two ..
      · exact extendLoad_readLE_four ..
    · have hcall : s.cycleStart.systemCall e = .done m fx := by simpa [State.memoryAccess, hr, hw, hk] using hdone
      obtain ⟨hchar, hint⟩ := State.systemCall_done_input hcall
      refine ⟨fun hop => ?_, fun hop => ?_⟩
      · obtain ⟨c, rest, hc, hfx, hout⟩ := hchar hop
        rw [State.cycleStart_env] at hc
        exact ⟨c, rest, hc, by simp [hchars, hfx, State.consume, hc], hout⟩
      · obtain ⟨n, rest, hn, hfx, hout⟩ := hint hop
        rw [State.cycleStart_env] at hn
        exact ⟨n, rest, hn, by simp [hints, hfx, State.consume, hn], hout⟩

end

section
/-! SUPPORT. The bits of a word (R111 to R117): pieces put together, the bits that the masks of R130 keep, and each format's word
put together again from its fields. -/

namespace Sys2Proof

/-! ### Pieces of a field -/

/-- Two adjacent pieces of a field are one piece. -/
theorem putField_or_putField {j k : Nat} (n : Nat) (a : BitVec j) (b : BitVec k) (lsb : Nat) :
    putField n a (lsb + k) ||| putField n b lsb = putField n (a ++ b) lsb := by
  ext i hi
  simp only [putField, BitVec.getElem_or, BitVec.getElem_shiftLeft, BitVec.getElem_setWidth, BitVec.getLsbD_append]
  by_cases h : i < lsb
  · simp [h, show i < lsb + k by omega]
  · by_cases h' : i - lsb < k
    · simp [h, h', show i < lsb + k by omega]
    · simp [h, h', show ¬ i < lsb + k by omega, BitVec.getLsbD_of_ge b (i - lsb) (by omega), Nat.sub_sub]

/-- A piece as wide as its field is the field. -/
@[simp] theorem putField_self {n : Nat} (a : BitVec n) : putField n a 0 = a := by
  simp [putField]

/-- The S field is the two pieces of R113. -/
theorem sFieldOf_eq_append (w : Word) : sFieldOf w = w.extractLsb' 25 7 ++ w.extractLsb' 7 5 :=
  (putField_or_putField 12 (w.extractLsb' 25 7) (w.extractLsb' 7 5) 0).trans (putField_self _)

/-- The B field is the four pieces of R114. -/
theorem bFieldOf_eq_append (w : Word) :
    bFieldOf w = w.extractLsb' 31 1 ++ w.extractLsb' 7 1 ++ w.extractLsb' 25 6 ++ w.extractLsb' 8 4 := by
  unfold bFieldOf
  rw [putField_or_putField 12 _ (w.extractLsb' 7 1) 10, putField_or_putField 12 _ (w.extractLsb' 25 6) 4,
    putField_or_putField 12 _ (w.extractLsb' 8 4) 0, putField_self]

/-- The J field is the four pieces of R116. -/
theorem jFieldOf_eq_append (w : Word) :
    jFieldOf w = w.extractLsb' 31 1 ++ w.extractLsb' 12 8 ++ w.extractLsb' 20 1 ++ w.extractLsb' 21 10 := by
  unfold jFieldOf
  rw [putField_or_putField 20 _ (w.extractLsb' 12 8) 11, putField_or_putField 20 _ (w.extractLsb' 20 1) 10,
    putField_or_putField 20 _ (w.extractLsb' 21 10) 0, putField_self]

/-- The U immediate is its field above twelve zeros (R115). -/
theorem immUValue_eq_append (f : BitVec 20) : immUValue f = f ++ 0#12 := by
  simpa [immUValue, putField] using putField_or_putField 32 f 0#12 0

/-- Sign-extending a field and moving it up by one is sign-extending the field with a zero below it (R114, R116). -/
theorem signExtend_shiftLeft_one {k : Nat} (f : BitVec k) (n : Nat) :
    f.signExtend n <<< 1 = (f ++ 0#1).signExtend n := by
  ext i hi
  have hmsb : (f ++ 0#1).msb = f.msb := by
    rcases k with _ | k
    · simp [BitVec.of_length_zero]
    · simp [BitVec.msb_append]
  rcases i with _ | i
  · simp [BitVec.getElem_signExtend, BitVec.getElem_append]
  · simp [BitVec.getElem_signExtend, BitVec.getElem_append, hmsb]

/-! ### The bits that a mask keeps are the fields that the decoder tests -/

variable {w : Word} {o : BitVec 7} {f : BitVec 3} {g : BitVec 7} {c : BitVec 2}

theorem and_mask_of_opcode (ho : opcodeOf w = o) : w &&& 0x0000007F#32 = putField 32 o 0 := by
  subst ho
  apply BitVec.eq_of_getLsbD_eq; intro i hi
  interval_cases i <;> simp [opcodeOf, putField]

theorem and_mask_of_funct3 (ho : opcodeOf w = o) (hf : funct3Of w = f) :
    w &&& 0x0000707F#32 = putField 32 f 12 ||| putField 32 o 0 := by
  subst ho hf
  apply BitVec.eq_of_getLsbD_eq; intro i hi
  interval_cases i <;> simp [opcodeOf, funct3Of, putField]

theorem and_mask_of_funct7 (ho : opcodeOf w = o) (hf : funct3Of w = f) (hg : funct7Of w = g) :
    w &&& 0xFE00707F#32 = putField 32 g 25 ||| putField 32 f 12 ||| putField 32 o 0 := by
  subst ho hf hg
  apply BitVec.eq_of_getLsbD_eq; intro i hi
  interval_cases i <;> simp [opcodeOf, funct3Of, funct7Of, putField]

theorem and_mask_of_fmt (ho : opcodeOf w = o) (hc : fmtOf w = c) :
    w &&& 0x0600007F#32 = putField 32 c 25 ||| putField 32 o 0 := by
  subst ho hc
  apply BitVec.eq_of_getLsbD_eq; intro i hi
  interval_cases i <;> simp [opcodeOf, fmtOf, putField]

/-! ### A format's word with the fields of a word `w`: `w` outside the mask of the format's rows -/

theorem encodeI_fields (w : Word) (f : BitVec 3) (o : BitVec 7) :
    encodeI (iFieldOf w) (rs1Of w) f (rdOf w) o = w &&& ~~~0x0000707F#32 ||| (putField 32 f 12 ||| putField 32 o 0) := by
  apply BitVec.eq_of_getLsbD_eq; intro i hi
  interval_cases i <;> simp [encodeI, iFieldOf, rs1Of, rdOf, putField]

theorem encodeS_fields (w : Word) (f : BitVec 3) (o : BitVec 7) :
    encodeS (sFieldOf w) (rs2Of w) (rs1Of w) f o = w &&& ~~~0x0000707F#32 ||| (putField 32 f 12 ||| putField 32 o 0) := by
  apply BitVec.eq_of_getLsbD_eq; intro i hi
  interval_cases i <;> simp [encodeS, sFieldOf, rs1Of, rs2Of, putField]

theorem encodeB_fields (w : Word) (f : BitVec 3) (o : BitVec 7) :
    encodeB (bFieldOf w) (rs2Of w) (rs1Of w) f o = w &&& ~~~0x0000707F#32 ||| (putField 32 f 12 ||| putField 32 o 0) := by
  apply BitVec.eq_of_getLsbD_eq; intro i hi
  interval_cases i <;> simp [encodeB, bFieldOf, rs1Of, rs2Of, putField]

theorem encodeR_fields (w : Word) (g : BitVec 7) (f : BitVec 3) (o : BitVec 7) :
    encodeR g (rs2Of w) (rs1Of w) f (rdOf w) o =
      w &&& ~~~0xFE00707F#32 ||| (putField 32 g 25 ||| putField 32 f 12 ||| putField 32 o 0) := by
  apply BitVec.eq_of_getLsbD_eq; intro i hi
  interval_cases i <;> simp [encodeR, rs1Of, rs2Of, rdOf, putField]

theorem encodeR4_fields (w : Word) (o : BitVec 7) :
    encodeR4 (rs3Of w) (rs2Of w) (rs1Of w) (funct3Of w) (rdOf w) o = w &&& ~~~0x0600007F#32 ||| putField 32 o 0 := by
  apply BitVec.eq_of_getLsbD_eq; intro i hi
  interval_cases i <;> simp [encodeR4, rs1Of, rs2Of, rs3Of, rdOf, funct3Of, putField]

theorem encodeU_fields (w : Word) (o : BitVec 7) :
    encodeU (uFieldOf w) (rdOf w) o = w &&& ~~~0x0000007F#32 ||| putField 32 o 0 := by
  apply BitVec.eq_of_getLsbD_eq; intro i hi
  interval_cases i <;> simp [encodeU, uFieldOf, rdOf, putField]

theorem encodeJ_fields (w : Word) (o : BitVec 7) :
    encodeJ (jFieldOf w) (rdOf w) o = w &&& ~~~0x0000007F#32 ||| putField 32 o 0 := by
  apply BitVec.eq_of_getLsbD_eq; intro i hi
  interval_cases i <;> simp [encodeJ, jFieldOf, rdOf, putField]

end Sys2Proof

end

section
/-! SUPPORT. The decoder is exact matching (R120): a word decodes to the instruction of a row exactly when the row exists and
matches the word. -/

namespace Sys2Proof

/-! ### The instruction of a row -/

/-- The instruction of a kind whose operands are the fields of `w` (R111). -/
def Kind.instrOf (w : Word) : Kind → Instr
  | .lui => .lui (rdOf w) (uFieldOf w)
  | .auipc => .auipc (rdOf w) (uFieldOf w)
  | .jal => .jal (rdOf w) (jFieldOf w)
  | .jalr => .jalr (rdOf w) (rs1Of w) (iFieldOf w)
  | .beq => .beq (rs1Of w) (rs2Of w) (bFieldOf w)
  | .bne => .bne (rs1Of w) (rs2Of w) (bFieldOf w)
  | .blt => .blt (rs1Of w) (rs2Of w) (bFieldOf w)
  | .bge => .bge (rs1Of w) (rs2Of w) (bFieldOf w)
  | .bltu => .bltu (rs1Of w) (rs2Of w) (bFieldOf w)
  | .bgeu => .bgeu (rs1Of w) (rs2Of w) (bFieldOf w)
  | .lb => .lb (rdOf w) (rs1Of w) (iFieldOf w)
  | .lh => .lh (rdOf w) (rs1Of w) (iFieldOf w)
  | .lw => .lw (rdOf w) (rs1Of w) (iFieldOf w)
  | .lbu => .lbu (rdOf w) (rs1Of w) (iFieldOf w)
  | .lhu => .lhu (rdOf w) (rs1Of w) (iFieldOf w)
  | .sb => .sb (rs1Of w) (rs2Of w) (sFieldOf w)
  | .sh => .sh (rs1Of w) (rs2Of w) (sFieldOf w)
  | .sw => .sw (rs1Of w) (rs2Of w) (sFieldOf w)
  | .addi => .addi (rdOf w) (rs1Of w) (iFieldOf w)
  | .slti => .slti (rdOf w) (rs1Of w) (iFieldOf w)
  | .sltiu => .sltiu (rdOf w) (rs1Of w) (iFieldOf w)
  | .xori => .xori (rdOf w) (rs1Of w) (iFieldOf w)
  | .ori => .ori (rdOf w) (rs1Of w) (iFieldOf w)
  | .andi => .andi (rdOf w) (rs1Of w) (iFieldOf w)
  | .slli => .slli (rdOf w) (rs1Of w) (rs2Of w)
  | .srli => .srli (rdOf w) (rs1Of w) (rs2Of w)
  | .srai => .srai (rdOf w) (rs1Of w) (rs2Of w)
  | .add => .add (rdOf w) (rs1Of w) (rs2Of w)
  | .sub => .sub (rdOf w) (rs1Of w) (rs2Of w)
  | .sll => .sll (rdOf w) (rs1Of w) (rs2Of w)
  | .slt => .slt (rdOf w) (rs1Of w) (rs2Of w)
  | .sltu => .sltu (rdOf w) (rs1Of w) (rs2Of w)
  | .xor => .xor (rdOf w) (rs1Of w) (rs2Of w)
  | .srl => .srl (rdOf w) (rs1Of w) (rs2Of w)
  | .sra => .sra (rdOf w) (rs1Of w) (rs2Of w)
  | .or => .or (rdOf w) (rs1Of w) (rs2Of w)
  | .and => .and (rdOf w) (rs1Of w) (rs2Of w)
  | .ecall => .ecall
  | .fmadd => .fmadd (rdOf w) (rs1Of w) (rs2Of w) (rs3Of w) (funct3Of w)
  | .fmsub => .fmsub (rdOf w) (rs1Of w) (rs2Of w) (rs3Of w) (funct3Of w)
  | .fnmsub => .fnmsub (rdOf w) (rs1Of w) (rs2Of w) (rs3Of w) (funct3Of w)
  | .fnmadd => .fnmadd (rdOf w) (rs1Of w) (rs2Of w) (rs3Of w) (funct3Of w)
  | .mul => .mul (rdOf w) (rs1Of w) (rs2Of w)
  | .mulh => .mulh (rdOf w) (rs1Of w) (rs2Of w)
  | .div => .div (rdOf w) (rs1Of w) (rs2Of w)
  | .rem => .rem (rdOf w) (rs1Of w) (rs2Of w)
  | .mulhsu => .mulhsu (rdOf w) (rs1Of w) (rs2Of w)
  | .mulhu => .mulhu (rdOf w) (rs1Of w) (rs2Of w)
  | .divu => .divu (rdOf w) (rs1Of w) (rs2Of w)
  | .remu => .remu (rdOf w) (rs1Of w) (rs2Of w)

@[simp] theorem Kind.kind_instrOf (w : Word) (k : Kind) : (k.instrOf w).kind = k := by
  cases k <;> rfl

/-- An instruction is well-formed exactly when its row exists (R125). -/
theorem Instr.wellFormed_eq_exists (m : MSet) (i : Instr) : i.wellFormed m = i.kind.exists m := by
  cases i <;> rfl

/-- Encoding the fields of `w` as a kind keeps `w` outside the row's mask and puts the row's match value inside it (R130). -/
theorem encode_instrOf (w : Word) (k : Kind) : encode (k.instrOf w) = w &&& ~~~k.rowMask ||| k.rowMatch := by
  cases k with
  | lui | auipc => exact encodeU_fields ..
  | jal => exact encodeJ_fields ..
  | beq | bne | blt | bge | bltu | bgeu => exact encodeB_fields ..
  | sb | sh | sw => exact encodeS_fields ..
  | jalr | lb | lh | lw | lbu | lhu | addi | slti | sltiu | xori | ori | andi => exact encodeI_fields ..
  | fmadd | fmsub | fnmsub | fnmadd => exact encodeR4_fields ..
  | ecall => simp [Kind.instrOf, encode, Kind.rowMask, Kind.rowMatch]
  | _ => exact encodeR_fields ..

/-- A word that matches a row is the word of the row's instruction. -/
theorem encode_instrOf_of_row {w : Word} {k : Kind} (hrow : w &&& k.rowMask = k.rowMatch) : encode (k.instrOf w) = w := by
  rw [encode_instrOf, ← hrow]
  ext j hj
  simp [← Bool.and_or_distrib_left]

/-- The word of an instruction matches its kind's row. -/
theorem encode_row (i : Instr) : encode i &&& i.kind.rowMask = i.kind.rowMatch := by
  cases i with
  | lui | auipc => exact encodeU_and_mask ..
  | jal => exact encodeJ_and_mask ..
  | beq | bne | blt | bge | bltu | bgeu => exact encodeB_and_mask ..
  | sb | sh | sw => exact encodeS_and_mask ..
  | jalr | lb | lh | lw | lbu | lhu | addi | slti | sltiu | xori | ori | andi => exact encodeI_and_mask ..
  | fmadd | fmsub | fnmsub | fnmadd => exact encodeR4_and_mask ..
  | ecall => decide
  | _ => exact encodeR_and_mask ..

/-- A word that matches a row is not compressed (R121). -/
theorem lowBits_of_row {w : Word} {k : Kind} (hrow : w &&& k.rowMask = k.rowMatch) : w.extractLsb' 0 2 = 0b11#2 := by
  have hmask : k.rowMask.extractLsb' 0 2 = 0b11#2 := by cases k <;> rfl
  have hmatch : k.rowMatch.extractLsb' 0 2 = 0b11#2 := by cases k <;> rfl
  have h : w.extractLsb' 0 2 &&& BitVec.allOnes 2 = 0b11#2 := by
    rw [← hmatch, ← hrow, BitVec.extractLsb'_and, hmask]
    rfl
  rwa [BitVec.and_allOnes] at h

/-! ### What decodes is its row's -/

/-- `i` is what exact matching gives for `w`: the instruction with the word's fields of a row that exists and matches (R120). -/
structure Instr.IsRowOf (m : MSet) (w : Word) (i : Instr) : Prop where
  kind_exists : i.kind.exists m = true
  row : w &&& i.kind.rowMask = i.kind.rowMatch
  fields : i = i.kind.instrOf w

variable {m : MSet} {w : Word} {i : Instr}

theorem decodeBranch_isRowOf (ho : opcodeOf w = 0b1100011#7) (h : decodeBranch w = some i) : i.IsRowOf m w := by
  unfold decodeBranch at h
  split at h <;> cases h
  all_goals
    rename_i hf
    exact ⟨rfl, and_mask_of_funct3 ho hf, rfl⟩

theorem decodeLoad_isRowOf (ho : opcodeOf w = 0b0000011#7) (h : decodeLoad w = some i) : i.IsRowOf m w := by
  unfold decodeLoad at h
  split at h <;> cases h
  all_goals
    rename_i hf
    exact ⟨rfl, and_mask_of_funct3 ho hf, rfl⟩

theorem decodeStore_isRowOf (ho : opcodeOf w = 0b0100011#7) (h : decodeStore w = some i) : i.IsRowOf m w := by
  unfold decodeStore at h
  split at h <;> cases h
  all_goals
    rename_i hf
    exact ⟨rfl, and_mask_of_funct3 ho hf, rfl⟩

theorem decodeOpImm_isRowOf (ho : opcodeOf w = 0b0010011#7) (h : decodeOpImm w = some i) : i.IsRowOf m w := by
  unfold decodeOpImm at h
  split at h
  case h_7 hf =>
    split_ifs at h with hg
    cases h
    exact ⟨rfl, and_mask_of_funct7 ho hf hg, rfl⟩
  case h_8 hf =>
    split_ifs at h with hg hg
    all_goals
      cases h
      exact ⟨rfl, and_mask_of_funct7 ho hf hg, rfl⟩
  all_goals
    rename_i hf
    cases h
    exact ⟨rfl, and_mask_of_funct3 ho hf, rfl⟩

theorem decodeOpBase_isRowOf (ho : opcodeOf w = 0b0110011#7) (hg : funct7Of w = 0b0000000#7)
    (h : decodeOpBase w = some i) : i.IsRowOf m w := by
  unfold decodeOpBase at h
  split at h <;> cases h
  all_goals
    rename_i hf
    exact ⟨rfl, and_mask_of_funct7 ho hf hg, rfl⟩

theorem decodeOpAlt_isRowOf (ho : opcodeOf w = 0b0110011#7) (hg : funct7Of w = 0b0100000#7)
    (h : decodeOpAlt w = some i) : i.IsRowOf m w := by
  unfold decodeOpAlt at h
  split at h <;> cases h
  all_goals
    rename_i hf
    exact ⟨rfl, and_mask_of_funct7 ho hf hg, rfl⟩

theorem decodeOpMul_isRowOf (ho : opcodeOf w = 0b0110011#7) (hg : funct7Of w = 0b0000001#7)
    (h : decodeOpMul m w = some i) : i.IsRowOf m w := by
  unfold decodeOpMul at h
  split at h
  case h_1 hf | h_2 hf | h_3 hf | h_4 hf =>
    cases h
    exact ⟨rfl, and_mask_of_funct7 ho hf hg, rfl⟩
  all_goals
    rename_i hf
    split_ifs at h with hm
    cases h
    exact ⟨decide_eq_true hm, and_mask_of_funct7 ho hf hg, rfl⟩

theorem decodeOp_isRowOf (ho : opcodeOf w = 0b0110011#7) (h : decodeOp m w = some i) : i.IsRowOf m w := by
  unfold decodeOp at h
  split at h
  · exact decodeOpBase_isRowOf ho ‹_› h
  · exact decodeOpAlt_isRowOf ho ‹_› h
  · exact decodeOpMul_isRowOf ho ‹_› h
  · cases h

/-- A word that `decodeRow` reads as an instruction matches its row and holds its operands. -/
theorem decodeRow_isRowOf (h : decodeRow m w = some i) : i.IsRowOf m w := by
  unfold decodeRow at h
  split at h
  case h_1 ho | h_2 ho | h_3 ho =>
    cases h
    exact ⟨rfl, and_mask_of_opcode ho, rfl⟩
  case h_4 ho =>
    split_ifs at h with hf
    cases h
    exact ⟨rfl, and_mask_of_funct3 ho hf, rfl⟩
  case h_5 ho => exact decodeBranch_isRowOf ho h
  case h_6 ho => exact decodeLoad_isRowOf ho h
  case h_7 ho => exact decodeStore_isRowOf ho h
  case h_8 ho => exact decodeOpImm_isRowOf ho h
  case h_9 ho => exact decodeOp_isRowOf ho h
  case h_10 ho | h_11 ho | h_12 ho | h_13 ho =>
    unfold decodeFused at h
    split_ifs at h with hc
    cases h
    exact ⟨rfl, and_mask_of_fmt ho hc, rfl⟩
  case h_14 =>
    split_ifs at h with hw
    cases h
    exact ⟨rfl, hw ▸ rfl, rfl⟩
  case h_15 => cases h

theorem decode_isRowOf (h : decode m w = .ok i) : i.IsRowOf m w := by
  unfold decode at h
  split_ifs at h
  split at h
  · cases h
    exact decodeRow_isRowOf ‹_›
  · cases h

/-- What decodes holds the fields of the word. -/
theorem exists_instrOf_of_decode (h : decode m w = .ok i) : ∃ k : Kind, i = k.instrOf w :=
  ⟨i.kind, (decode_isRowOf h).fields⟩

/-! ### What matches a row decodes -/

/-- The decoder reads the word of an instruction back, once its row exists. -/
theorem decodeRow_encode (h : i.kind.exists m = true) : decodeRow m (encode i) = some i := by
  cases i with
  | lui | auipc | jal | jalr => simp [encode, decodeRow]
  | beq | bne | blt | bge | bltu | bgeu => simp [encode, decodeRow, decodeBranch]
  | lb | lh | lw | lbu | lhu => simp [encode, decodeRow, decodeLoad]
  | sb | sh | sw => simp [encode, decodeRow, decodeStore]
  | addi | slti | sltiu | xori | ori | andi | slli | srli | srai => simp [encode, decodeRow, decodeOpImm]
  | add | sll | slt | sltu | xor | srl | or | and => simp [encode, decodeRow, decodeOp, decodeOpBase]
  | sub | sra => simp [encode, decodeRow, decodeOp, decodeOpAlt]
  | mul | mulh | div | rem => simp [encode, decodeRow, decodeOp, decodeOpMul]
  | mulhsu | mulhu | divu | remu =>
    obtain rfl : m = .full8 := of_decide_eq_true h
    simp [encode, decodeRow, decodeOp, decodeOpMul]
  | fmadd | fmsub | fnmsub | fnmadd => simp [encode, decodeRow, decodeFused]
  | ecall => rfl

theorem decode_encode (h : i.kind.exists m = true) : decode m (encode i) = .ok i := by
  simp [decode, lowBits_of_row (encode_row i), decodeRow_encode h]

/-- A word that matches a row that exists decodes to the row's instruction. -/
theorem decode_of_row {k : Kind} (hk : k.exists m = true) (hrow : w &&& k.rowMask = k.rowMatch) :
    decode m w = .ok (k.instrOf w) := by
  have h : decode m (encode (k.instrOf w)) = .ok (k.instrOf w) := decode_encode (by simpa using hk)
  rwa [encode_instrOf_of_row hrow] at h

/-- A word that decodes to no instruction fails for its low two bits, or else because it matches no row (R121). -/
theorem decode_of_forall_ne (h : ∀ i, decode m w ≠ .ok i) :
    decode m w = .error (if w.extractLsb' 0 2 = 0b11#2 then .unrecognized else .compressed) := by
  unfold decode at h ⊢
  by_cases hc : w.extractLsb' 0 2 = 0b11#2
  · cases hr : decodeRow m w with
    | none => simp [hc]
    | some i => simp [hc, hr] at h
  · simp [hc]

/-! ### The fields of a row's instruction (R131) -/

variable (w : Word) (k : Kind)

theorem instrOf_rs1 : (k.instrOf w).rs1 =
    if k = .ecall then 10#5 else if k.readsRs1 then w.extractLsb' 15 5 else 0#5 := by
  cases k <;> rfl

theorem instrOf_rs2 : (k.instrOf w).rs2 =
    if k = .ecall then 17#5 else if k.readsRs2 then w.extractLsb' 20 5 else 0#5 := by
  cases k <;> rfl

theorem instrOf_rs3 : (k.instrOf w).rs3 = if k.readsRs3 then w.extractLsb' 27 5 else 0#5 := by
  cases k <;> rfl

theorem instrOf_dest : (k.instrOf w).dest =
    if k = .ecall then 10#5 else if k.isBranch || k.isStore then 0#5 else w.extractLsb' 7 5 := by
  cases k <;> rfl

variable {k}

theorem instrOf_imm_of_isStore (hk : k.isStore = true) : (k.instrOf w).imm = imm12Value (sFieldOf w) := by
  cases k with
  | sb | sh | sw => rfl
  | _ => cases hk

theorem instrOf_imm_of_isBranch (hk : k.isBranch = true) : (k.instrOf w).imm = immBValue (bFieldOf w) := by
  cases k with
  | beq | bne | blt | bge | bltu | bgeu => rfl
  | _ => cases hk

/-- The kinds of format I whose immediate is the I field (R112, R130). -/
theorem instrOf_imm_of_iField (hk : (k.isLoad || k == .jalr || k == .addi || k == .slti || k == .sltiu || k == .xori
    || k == .ori || k == .andi) = true) : (k.instrOf w).imm = imm12Value (iFieldOf w) := by
  cases k with
  | lb | lh | lw | lbu | lhu | jalr | addi | slti | sltiu | xori | ori | andi => rfl
  | _ => cases hk

theorem instrOf_imm_of_uField (hk : (k == .lui || k == .auipc) = true) : (k.instrOf w).imm = immUValue (uFieldOf w) := by
  cases k with
  | lui | auipc => rfl
  | _ => cases hk

theorem instrOf_imm_of_shamt (hk : (k == .slli || k == .srli || k == .srai) = true) :
    (k.instrOf w).imm = shamtValue (rs2Of w) := by
  cases k with
  | slli | srli | srai => rfl
  | _ => cases hk

end Sys2Proof

open Sys2Proof

/-- Settles O1: each format's word gives back the fields that the encoder put there. -/
theorem encodeThenDecode : Obligations.EncodeThenDecode := by
  intro m i hwf
  rw [Instr.wellFormed_eq_exists] at hwf
  exact decode_encode hwf

/-- Settles O2: the instruction has the fields of `w`, and `w` matches its row. -/
theorem decodeThenEncode : Obligations.DecodeThenEncode := by
  intro m w i h
  obtain ⟨hexist, hrow, hfields⟩ := decode_isRowOf h
  refine ⟨?_, by rw [Instr.wellFormed_eq_exists, hexist]⟩
  rw [hfields]
  exact encode_instrOf_of_row hrow

/-- Settles O3: no second row matches, since the word would decode to its instruction too. -/
theorem decodeMatchesOneRow : Obligations.DecodeMatchesOneRow := by
  refine ⟨fun m w i h => ?_, fun m w k hk hrow => ⟨k.instrOf w, decode_of_row hk hrow, k.kind_instrOf w⟩, fun m w h => ?_⟩
  · obtain ⟨hexist, hrow, -⟩ := decode_isRowOf h
    refine ⟨hrow, hexist, fun k hk hrow' => ?_⟩
    obtain rfl : k.instrOf w = i := Except.ok.inj ((decode_of_row hk hrow').symm.trans h)
    exact (k.kind_instrOf w).symm
  · refine decode_of_forall_ne fun i hi => ?_
    obtain ⟨hexist, hrow, -⟩ := decode_isRowOf hi
    exact h i.kind hexist hrow

/-- Settles O4. -/
theorem decodedFields : Obligations.DecodedFields := by
  intro m w i h
  obtain ⟨k, rfl⟩ := exists_instrOf_of_decode h
  rw [Kind.kind_instrOf]
  exact ⟨instrOf_rs1 w k, instrOf_rs2 w k, instrOf_rs3 w k, instrOf_dest w k⟩

/-- Settles O5: each kind's immediate is the value of its format's field, and a field in pieces is their concatenation. -/
theorem decodedImmediates : Obligations.DecodedImmediates := by
  intro m w i h
  obtain ⟨k, rfl⟩ := exists_instrOf_of_decode h
  rw [Kind.kind_instrOf]
  refine ⟨fun hk => instrOf_imm_of_iField w hk, fun hk => ?_, fun hk => ?_, fun hk => ?_, fun hk => ?_,
    fun hk => instrOf_imm_of_shamt w hk⟩
  · rw [instrOf_imm_of_isStore w hk, imm12Value, sFieldOf_eq_append]
  · rw [instrOf_imm_of_isBranch w hk, immBValue, signExtend_shiftLeft_one, bFieldOf_eq_append]
  · rw [instrOf_imm_of_uField w hk, immUValue_eq_append, uFieldOf]
  · rw [hk, Kind.instrOf, Instr.imm, immJValue, signExtend_shiftLeft_one, jFieldOf_eq_append]

/-- Settles O6, by running the decoder on each word. -/
theorem decodeSampleWords : Obligations.DecodeSampleWords := by
  refine ⟨?_, ?_, ?_, ?_, ?_, ?_, ?_⟩ <;> decide

end

section
/-! SUPPORT. The values of the integer register-immediate and register-register kinds (spec/40_integer_alu.md R150 to R179), and
`exec` of a kind whose Execute rule gives one. -/

namespace Sys2Proof.Machine

/-- An instruction whose kind's rule gives an ALU result writes it and advances (R150, R153). -/
theorem exec_alu {i : Instr} {s : State} {v : Word} (hb : i.kind.isBranch = false) (hk : i.kind ≠ .ecall)
    (hv : executeKind i.kind s.params (s.snapshot s.pc (encode i) i) = ExOut.alu v) :
    exec i s = .next (s.afterWrite i.dest v (mulPenalty i.kind)) := by
  rw [exec_eq]
  exact runAlone_alu hb hk hv

variable (a b : Word)

/-- The register value of `a <s b` (R161, R173). -/
theorem boolWord_signedLess : boolWord (signedLess a b) = if a.toInt < b.toInt then 1#32 else 0#32 := by
  simp [boolWord, signedLess]

/-- The register value of `a <u b` (R162, R174). -/
theorem boolWord_unsignedLess : boolWord (unsignedLess a b) = if a.toNat < b.toNat then 1#32 else 0#32 := by
  simp [boolWord, unsignedLess]

/-- A register's shift amount is its low five bits, the value modulo 32 (R172, R176, R177). -/
theorem shiftAmount_eq_mod : shiftAmount b = b.toNat % 32 := by
  simp [shiftAmount]

/-- The I immediate keeps its signed value (R112). -/
theorem imm12Value_toInt (imm : BitVec 12) : (imm12Value imm).toInt = imm.toInt :=
  BitVec.toInt_signExtend_of_le (by decide)

/-- The shift immediate keeps its unsigned value (R117). -/
theorem shamtValue_toNat (sh : BitVec 5) : (shamtValue sh).toNat = sh.toNat :=
  BitVec.toNat_setWidth_of_le (by decide)

end Sys2Proof.Machine

open Sys2Proof Sys2Proof.Machine

/-- Settles O8: with comparisons and shifts restated as the rules of the kinds write them, every rule gives its ALU result. -/
theorem opImmResults : Obligations.OpImmResults := by
  intro s rd rs1 imm sh
  rw [← imm12Value_toInt, ← boolWord_signedLess, ← boolWord_unsignedLess, ← shamtValue_toNat]
  and_intros <;> exact exec_alu rfl nofun rfl

/-- Settles O9, as O8; a shift's amount is the low five bits of its second source. -/
theorem opResults : Obligations.OpResults := by
  intro s rd rs1 rs2 a b
  rw [← boolWord_signedLess, ← boolWord_unsignedLess, ← shiftAmount_eq_mod]
  and_intros <;> exact exec_alu rfl nofun rfl

end

section
/-! SUPPORT. `exec` of a load and of a store (spec/41_loads_stores.md R190 to R203): what a performed access does, and the
fault of one that is not. -/

namespace Sys2Proof.Machine

/-- The width in bytes of a load kind (R190 to R194). -/
def loadLen : Kind → BitVec 3
  | .lb | .lbu => 1#3
  | .lh | .lhu => 2#3
  | _ => 4#3

/-- The load kinds that sign-extend (R88, R201). -/
def loadSigned : Kind → Bool
  | .lb | .lh => true
  | _ => false

/-- The rule of a load kind is a load of its width and its extension (R201). -/
theorem executeKind_load {k : Kind} (hk : k.isLoad = true) (p : Params) (d : DRec) :
    executeKind k p d = ExOut.load d (loadLen k) (loadSigned k) := by
  cases k with
  | lb | lh | lw | lbu | lhu => rfl
  | _ => cases hk

/-- A load kind is no branch and has no multiply penalty (R132). -/
theorem classes_of_isLoad {k : Kind} (hk : k.isLoad = true) : k.isBranch = false ∧ k.isMulPenalty = false := by
  cases k with
  | lb | lh | lw | lbu | lhu => exact ⟨rfl, rfl⟩
  | _ => cases hk

variable {i : Instr} {s : State}

/-- A load whose access is performed writes the extended value of its bytes (R200, R201). -/
theorem exec_load {v : Word} (hk : i.kind.isLoad = true)
    (hok : accessOk s.params (s.readReg i.rs1 + i.imm) (loadLen i.kind).toNat = true)
    (hv : extendLoad (s.mem.readLE (s.readReg i.rs1 + i.imm).toNat (loadLen i.kind).toNat) (loadLen i.kind).toNat
      (loadSigned i.kind) = v) :
    exec i s = .next ((s.afterWrite i.dest v 0).afterLatency 1) := by
  obtain ⟨hb, hp⟩ := classes_of_isLoad hk
  rw [exec_eq, runAlone_load hb hp (executeKind_load hk ..) hok, hv]

/-- A load whose access is not performed writes no register (R203). -/
theorem exec_load_fault (hk : i.kind.isLoad = true)
    (hok : accessOk s.params (s.readReg i.rs1 + i.imm) (loadLen i.kind).toNat = false) :
    exec i s = .next (s.raise (.memoryFault (s.readReg i.rs1 + i.imm) (loadLen i.kind).toNat .load)) := by
  rw [exec_eq, runAlone_load_fault (classes_of_isLoad hk).1 (executeKind_load hk ..) hok]

/-- A store whose access is performed writes the bytes of its value and no register (R200, R202). -/
theorem exec_store (hk : i.kind.isStore = true)
    (hok : accessOk s.params (s.readReg i.rs1 + i.imm) (storeLen i.kind).toNat = true) :
    exec i s = .next (({ s with
      mem := s.mem.writeLE (s.readReg i.rs1 + i.imm).toNat (storeLen i.kind).toNat (s.readReg i.rs2) }.advance 0).afterLatency 1) := by
  obtain ⟨hb, hp⟩ := classes_of_isStore hk
  rw [exec_eq, runAlone_store hb hp (executeKind_store hk ..) hok]

/-- A store whose access is not performed writes no byte (R203). -/
theorem exec_store_fault (hk : i.kind.isStore = true)
    (hok : accessOk s.params (s.readReg i.rs1 + i.imm) (storeLen i.kind).toNat = false) :
    exec i s = .next (s.raise (.memoryFault (s.readReg i.rs1 + i.imm) (storeLen i.kind).toNat .store)) := by
  rw [exec_eq, runAlone_store_fault (classes_of_isStore hk).1 (executeKind_store hk ..) hok]

/-! ### The bytes after a store, width by width (R83, R202) -/

variable {m : Memory} {a : Nat}

theorem Memory.read_writeLE_one (hm : m.wf = true) (v : Word) (ha : a + 1 ≤ 2 ^ 32) (b : Nat) :
    (m.writeLE a 1 v).read b = if b = a then v.extractLsb' 0 8 else m.read b := by
  rw [Memory.read_writeLE hm v ha]
  grind

theorem Memory.read_writeLE_two (hm : m.wf = true) (v : Word) (ha : a + 2 ≤ 2 ^ 32) (b : Nat) :
    (m.writeLE a 2 v).read b = if b = a then v.extractLsb' 0 8 else if b = a + 1 then v.extractLsb' 8 8 else m.read b := by
  rw [Memory.read_writeLE hm v ha]
  grind

theorem Memory.read_writeLE_four (hm : m.wf = true) (v : Word) (ha : a + 4 ≤ 2 ^ 32) (b : Nat) :
    (m.writeLE a 4 v).read b = if b = a then v.extractLsb' 0 8 else if b = a + 1 then v.extractLsb' 8 8
      else if b = a + 2 then v.extractLsb' 16 8 else if b = a + 3 then v.extractLsb' 24 8 else m.read b := by
  rw [Memory.read_writeLE hm v ha]
  grind

end Sys2Proof.Machine

open Sys2Proof Sys2Proof.Machine

/-- Settles O15: each kind is a load of its width, whose bytes assemble and extend as its rule says. -/
theorem loadResults : Obligations.LoadResults := by
  intro s rd rs1 imm ea byte
  refine ⟨fun h => ⟨?lb, ?lbu⟩, fun h => ⟨?lh, ?lhu⟩, fun h => ?lw⟩
  case lb | lbu => exact exec_load rfl h (extendLoad_readLE_one ..)
  case lh | lhu => exact exec_load rfl h (extendLoad_readLE_two ..)
  case lw => exact exec_load rfl h (extendLoad_readLE_four ..)

/-- Settles O16: each kind is a store of its width, which ends within the address space since its access is performed. -/
theorem storeResults : Obligations.StoreResults := by
  intro s rs1 rs2 imm hwf ea v
  have top {n : Nat} (h : accessOk s.params ea n = true) : ea.toNat + n ≤ 2 ^ 32 := (accessOk_iff.1 h).1
  refine ⟨fun h => ?_, fun h => ?_, fun h => ?_⟩
  · exact ⟨_, exec_store rfl h, Memory.wf_writeLE hwf v (top h), Memory.read_writeLE_one hwf v (top h)⟩
  · exact ⟨_, exec_store rfl h, Memory.wf_writeLE hwf v (top h), Memory.read_writeLE_two hwf v (top h)⟩
  · exact ⟨_, exec_store rfl h, Memory.wf_writeLE hwf v (top h), Memory.read_writeLE_four hwf v (top h)⟩

/-- Settles O17: the access is checked before any register or byte is written. -/
theorem accessFaults : Obligations.AccessFaults := by
  intro s rd rs1 rs2 imm ea
  exact ⟨fun h => ⟨exec_load_fault rfl h, exec_load_fault rfl h, exec_store_fault rfl h⟩,
    fun h => ⟨exec_load_fault rfl h, exec_load_fault rfl h, exec_store_fault rfl h⟩,
    fun h => ⟨exec_load_fault rfl h, exec_store_fault rfl h⟩⟩

end

section
/-! SUPPORT. `exec` of a branch and of a jump (spec/42_branches_jumps.md R210 to R223): a branch by its condition on its two
sources, a jump by its target. -/

namespace Sys2Proof.Machine

/-- The rule of a kind with a branch condition resolves it against the record's prediction (R220). -/
theorem executeKind_branch {k : Kind} {d : DRec} {taken : Bool} (h : branchOutcome k d.op1 d.op2 = some taken) (p : Params) :
    executeKind k p d = ExOut.branch d taken := by
  cases k with
  | beq | bne | blt | bge | bltu | bgeu => obtain rfl := Option.some.inj h; rfl
  | _ => cases h

/-- Only the branch kinds have a condition (R132, R210 to R215). -/
theorem isBranch_of_branchOutcome {k : Kind} {a b : Word} {taken : Bool} (h : branchOutcome k a b = some taken) :
    k.isBranch = true := by
  cases k with
  | beq | bne | blt | bge | bltu | bgeu => rfl
  | _ => cases h

/-- A branch kind is not ECALL and has no multiply penalty (R132). -/
theorem classes_of_isBranch {k : Kind} (hk : k.isBranch = true) : k ≠ .ecall ∧ k.isMulPenalty = false := by
  cases k with
  | beq | bne | blt | bge | bltu | bgeu => exact ⟨nofun, rfl⟩
  | _ => cases hk

/-- A jump kind is no branch, is not ECALL and has no multiply penalty (R132). -/
theorem classes_of_isJump {k : Kind} (hk : k.isJump = true) : k.isBranch = false ∧ k ≠ .ecall ∧ k.isMulPenalty = false := by
  cases k with
  | jal | jalr => exact ⟨rfl, nofun, rfl⟩
  | _ => cases hk

variable {i : Instr} {s : State}

/-- A branch goes where its condition on its two sources says, whatever the predictor answers (R220, R221). -/
theorem exec_branch {taken : Bool} (h : branchOutcome i.kind (s.readReg i.rs1) (s.readReg i.rs2) = some taken) :
    exec i s = .next (s.afterBranch i.kind i.rs1 i.rs2 i.imm taken) := by
  have hb := isBranch_of_branchOutcome h
  obtain ⟨hk, hp⟩ := classes_of_isBranch hb
  rw [exec_eq]
  refine runAlone_branch hb hk hp fun d h1 h2 => executeKind_branch ?_ s.params
  rw [h1, h2, h]

/-- A jump writes its link and goes to its target, which its rule computes from the operands before the write (R216, R217). -/
theorem exec_jump {target : Word} (hj : i.kind.isJump = true)
    (hv : executeKind i.kind s.params (s.snapshot s.pc (encode i) i) = ExOut.jump (s.snapshot s.pc (encode i) i) target) :
    exec i s = .next (s.afterJump i.dest target) := by
  obtain ⟨hb, hk, hp⟩ := classes_of_isJump hj
  rw [exec_eq]
  exact runAlone_jump hb hk hp hv

end Sys2Proof.Machine

open Sys2Proof Sys2Proof.Machine

/-- Settles O19: with the offset restated as the B immediate (R114), each kind's condition is its outcome. -/
theorem branchResults : Obligations.BranchResults := by
  intro s rs1 rs2 off a b
  rw [← signExtend_shiftLeft_one]
  intro o
  and_intros <;> exact exec_branch rfl

/-- Settles O20: with JAL's offset restated as the J immediate (R116), each target is the one that its rule computes. -/
theorem jumpResults : Obligations.JumpResults := by
  intro s rd rs1 off imm
  rw [← signExtend_shiftLeft_one]
  exact ⟨exec_jump rfl rfl, exec_jump rfl rfl⟩

end

section

open Sys2Proof Sys2Proof.Machine

/-- Settles O10: with the operand restated as the U immediate (R115), both rules give their ALU results, AUIPC's from the
instruction's own address. -/
theorem upperImmediateResults : Obligations.UpperImmediateResults := by
  intro s rd imm
  rw [← immUValue_eq_append]
  exact ⟨exec_alu rfl nofun rfl, exec_alu rfl nofun rfl⟩

end

section
/-! SUPPORT. The system call (spec/44_system_call.md R240 to R252): what the Memory stage answers for each call number, the string
that call 0 reads, and how ECALL run by itself ends. -/

namespace Sys2Proof.Machine

variable {s : State} {e : ERec}

/-! ### The calls by number -/

theorem State.memoryAccess_ecall (hr : e.readMem = false) (hw : e.writeMem = false) (hk : e.kind = .ecall) :
    s.memoryAccess e = s.systemCall e := by
  simp [State.memoryAccess, hr, hw, hk]

theorem State.systemCall_printString (h : e.op2 = 0#32) : s.systemCall e = s.callPrintString e := by
  simp [State.systemCall, h]

theorem State.systemCall_printChar (h : e.op2 = 1#32) : s.systemCall e = s.callPrintChar e := by
  simp [State.systemCall, h]

theorem State.systemCall_printInt (h : e.op2 = 2#32) : s.systemCall e = s.callPrintInt e := by
  simp [State.systemCall, h]

theorem State.systemCall_readChar (h : e.op2 = 4#32) {c : Byte} {rest : List Byte} (hin : s.env.chars = c :: rest) :
    s.systemCall e = .done { e.passOn with out := c.setWidth 32 } { Effects.nothing with consumed := some (.char c) } := by
  simp [State.systemCall, h, State.callReadChar, hin]

theorem State.systemCall_readInt (h : e.op2 = 5#32) {n : Word} {rest : List Word} (hin : s.env.ints = n :: rest) :
    s.systemCall e = .done { e.passOn with out := n } { Effects.nothing with consumed := some (.int n) } := by
  simp [State.systemCall, h, State.callReadInt, hin]

/-- Calls 4 and 5 do not complete while no input of their kind waits (R250). -/
theorem State.systemCall_waits (h : (e.op2 = 4#32 ∧ s.env.chars = []) ∨ (e.op2 = 5#32 ∧ s.env.ints = [])) :
    s.systemCall e = .stuck .awaitingConsoleInput := by
  rcases h with ⟨hop, hin⟩ | ⟨hop, hin⟩
  · simp [State.systemCall, hop, State.callReadChar, hin]
  · simp [State.systemCall, hop, State.callReadInt, hin]

/-- Calls 3 and 93 are the exit event (R246). -/
theorem State.systemCall_exit (h : e.op2 = 3#32 ∨ e.op2 = 93#32) : s.systemCall e = .exit := by
  rcases h with hop | hop <;> simp [State.systemCall, hop]

/-- A number of no call raises UnknownSyscall (R249). -/
theorem State.systemCall_unknown (h : ∀ n ∈ [0, 1, 2, 3, 4, 5, 93], e.op2 ≠ BitVec.ofNat 32 n) :
    s.systemCall e = .fatal (.unknownSyscall e.op2) [] := by
  simp only [List.forall_mem_cons] at h
  obtain ⟨h0, h1, h2, h3, h4, h5, h93, -⟩ := h
  simp [State.systemCall, h0, h1, h2, h3, h4, h5, h93]

/-! ### The string of call 0 -/

variable {p : Word} {n fuel : Nat}

theorem State.memRead_byte (h : accessOk s.params p 1 = true) (acc : Access) :
    s.memRead p 1 acc = .ok ((s.mem.read p.toNat).setWidth 32) := by
  simp [State.memRead, h, Memory.readLE_one]

/-- The loop of call 0 stops at a byte that cannot be read. -/
theorem State.readString_fault (h : accessOk s.params p 1 = false) :
    s.readString (fuel + 1) p = .faulted (.memoryFault p 1 .stringRead) [] := by
  simp [State.readString, State.memRead, h]

/-- It ends at a zero byte. -/
theorem State.readString_zero (h : accessOk s.params p 1 = true) (hb : s.mem.read p.toNat = 0#8) :
    s.readString (fuel + 1) p = .ended [] 1 := by
  simp [State.readString, State.memRead_byte h, hb]

/-- It passes over every other byte. -/
theorem State.readString_char (h : accessOk s.params p 1 = true) (hb : s.mem.read p.toNat ≠ 0#8) :
    s.readString (fuel + 1) p = (s.readString fuel (p + 1#32)).after (.char (s.mem.read p.toNat)) := by
  have hb' : (s.mem.read p.toNat).setWidth 32 ≠ 0#32 := by
    intro h0
    exact hb (by simpa using congrArg (BitVec.setWidth 8) h0)
  simp [State.readString, State.memRead_byte h, hb']

theorem add_one_add_ofNat (p : Word) (k : Nat) : p + 1#32 + BitVec.ofNat 32 k = p + BitVec.ofNat 32 (k + 1) := by
  rw [BitVec.add_assoc, Nat.add_comm k, BitVec.ofNat_add]

theorem State.stringAt_succ (h : s.stringAt p (n + 1)) :
    accessOk s.params p 1 = true ∧ s.mem.read p.toNat ≠ 0#8 ∧ s.stringAt (p + 1#32) n := by
  obtain ⟨hn, hbytes⟩ := h
  obtain ⟨hok, hb⟩ : accessOk s.params p 1 = true ∧ s.mem.read p.toNat ≠ 0#8 := by simpa using hbytes 0 (by omega)
  refine ⟨hok, hb, by omega, fun k hk => ?_⟩
  rw [add_one_add_ofNat]
  exact hbytes (k + 1) (by omega)

theorem State.charsAt_succ (s : State) (p : Word) (n : Nat) :
    s.charsAt p (n + 1) = .char (s.mem.read p.toNat) :: s.charsAt (p + 1#32) n := by
  simp only [State.charsAt, List.range_succ_eq_map, List.map_cons, List.map_map, add_one_add_ofNat, BitVec.add_zero]
  rfl

/-- The loop passes over the whole of a readable string of nonzero bytes and puts its characters in front (R243). -/
theorem State.readString_stringAt (h : s.stringAt p n) :
    s.readString (n + fuel) p = (s.charsAt p n).foldr StringRead.after (s.readString fuel (p + BitVec.ofNat 32 n)) := by
  induction n generalizing p with
  | zero => simp [State.charsAt]
  | succ n ih =>
    obtain ⟨hok, hb, hrest⟩ := State.stringAt_succ h
    rw [Nat.add_right_comm, State.readString_char hok hb, ih hrest, State.charsAt_succ, List.foldr_cons, add_one_add_ofNat]

theorem StringRead.foldr_after_ended (cs : List OutEvent) (k : Nat) :
    cs.foldr StringRead.after (.ended [] k) = .ended cs (cs.length + k) := by
  induction cs with
  | nil => simp
  | cons c cs ih => rw [List.foldr_cons, ih, StringRead.after, List.length_cons, Nat.add_right_comm]

theorem StringRead.foldr_after_faulted (cs : List OutEvent) (v : FatalEvent) :
    cs.foldr StringRead.after (.faulted v []) = .faulted v cs := by
  induction cs with
  | nil => rfl
  | cons c cs ih => rw [List.foldr_cons, ih, StringRead.after]

/-- The fuel of call 0 is more than the length of any string. -/
theorem exists_fuel (h : n < 2 ^ 32) : ∃ fuel, 2 ^ 32 = n + (fuel + 1) := ⟨2 ^ 32 - n - 1, by omega⟩

/-- A string that ends in a zero byte is read with its terminator (R243). -/
theorem State.printString_ended (h : s.stringAt p n) (hok : accessOk s.params (p + BitVec.ofNat 32 n) 1 = true)
    (hb : s.mem.read (p + BitVec.ofNat 32 n).toNat = 0#8) : s.printString p = .ended (s.charsAt p n) (n + 1) := by
  obtain ⟨fuel, hfuel⟩ := exists_fuel h.1
  rw [State.printString, hfuel, State.readString_stringAt h, State.readString_zero hok hb, StringRead.foldr_after_ended]
  simp [State.charsAt]

/-- A string that meets a byte that cannot be read keeps the characters before it (R243). -/
theorem State.printString_faulted (h : s.stringAt p n) (hok : accessOk s.params (p + BitVec.ofNat 32 n) 1 = false) :
    s.printString p = .faulted (.memoryFault (p + BitVec.ofNat 32 n) 1 .stringRead) (s.charsAt p n) := by
  obtain ⟨fuel, hfuel⟩ := exists_fuel h.1
  rw [State.printString, hfuel, State.readString_stringAt h, State.readString_fault hok, StringRead.foldr_after_faulted]

/-- With no zero byte and no fault anywhere, no number of bytes ends the loop (R243). -/
theorem State.readString_endless (h : ∀ a : Word, accessOk s.params a 1 = true ∧ s.mem.read a.toNat ≠ 0#8) (fuel : Nat)
    (p : Word) : s.readString fuel p = .endless := by
  induction fuel generalizing p with
  | zero => rfl
  | succ fuel ih => rw [State.readString_char (h p).1 (h p).2, ih, StringRead.after]

/-! ### ECALL run by itself -/

/-- How ECALL run by itself ends when the Memory stage answers `r`. -/
def State.endCall (s : State) (r : MemResult) : Host.Outcome State Fault Refusal :=
  match r with
  | .stuck f => .fault f
  | .fatal v printed => .next ((s.emit printed).raise v)
  | .exit => .next ((s.count 0 1).exitRun)
  | .done m fx => .next (s.completeAlone .ecall (s.executedAlone .ecall) (s.decodedAlone .ecall) m fx)

/-- ECALL run by itself makes the call of its record (R241, R242). -/
theorem exec_ecall : exec .ecall s = s.endCall (s.systemCall (s.recordAlone .ecall)) := rfl

theorem State.recordAlone_ecall_op1 : (s.recordAlone .ecall).op1 = s.readReg 10#5 := rfl
theorem State.recordAlone_ecall_op2 : (s.recordAlone .ecall).op2 = s.readReg 17#5 := rfl

/-- Only calls 4 and 5 write a register (R241). -/
theorem State.recordAlone_ecall_writeReg :
    (s.recordAlone .ecall).passOn.writeReg = (decide (s.readReg 17#5 = 4#32) || decide (s.readReg 17#5 = 5#32)) := rfl

/-- A call that prints emits its characters, advances, and has the latency of its reads (R91, R243 to R245). -/
theorem State.endCall_output (h : s.readReg 17#5 ≠ 4#32 ∧ s.readReg 17#5 ≠ 5#32) (out : List OutEvent) (n : Nat) :
    s.endCall (.done (s.recordAlone .ecall).passOn { Effects.nothing with output := out, accesses := n }) =
      .next (((s.emit out).advance 0).afterLatency n) := by
  have hw : (s.recordAlone .ecall).passOn.writeReg = false := by simp [State.recordAlone_ecall_writeReg, h]
  simp only [State.endCall, State.completeAlone, State.writeBack, hw]
  rfl

theorem State.applyEffects_consumed (c : Option InEvent) :
    s.applyEffects { Effects.nothing with consumed := c } = s.consume c := by
  simp [State.applyEffects, Effects.nothing]

/-- A call that reads consumes its input, writes `x10` and advances (R247, R248). -/
theorem State.endCall_input (h : s.readReg 17#5 = 4#32 ∨ s.readReg 17#5 = 5#32) (v : Word) (c : InEvent) :
    s.endCall (.done { (s.recordAlone .ecall).passOn with out := v } { Effects.nothing with consumed := some c }) =
      .next ((s.consume (some c)).afterWrite 10#5 v 0) := by
  have hw : (s.recordAlone .ecall).passOn.writeReg = true := by simpa [State.recordAlone_ecall_writeReg] using h
  simp only [State.endCall, State.completeAlone, State.writeBack, hw, if_true, State.applyEffects_consumed]
  cases c <;> rfl

/-- The end of an exit, field by field (R333). -/
theorem State.exitRun_eq (s : State) :
    s.exitRun = { s with
      x := s.x.set 0 0#32
      status := if (s.readReg 2#5).toNat < s.params.stackFloor.toNat then .fatal (.stackOverflow (s.readReg 2#5))
        else .exited } := by
  unfold State.exitRun
  simp only [State.guardFails, State.sp, State.forceX0_readReg, State.forceX0_params, decide_eq_true_eq]
  split_ifs <;> rfl

end Sys2Proof.Machine

open Sys2Proof Sys2Proof.Machine

/-- Settles O21: neither call writes a register, and neither has a latency. -/
theorem ecallPrints : Obligations.EcallPrints := by
  refine fun s => ⟨fun h => ?_, fun h => ?_⟩
  · rw [exec_ecall, State.systemCall_printChar h]
    exact State.endCall_output (by simp [h]) _ 0
  · rw [exec_ecall, State.systemCall_printInt h]
    exact State.endCall_output (by simp [h]) _ 0

/-- Settles O22: the call reads the string with its terminator. -/
theorem ecallPrintString : Obligations.EcallPrintString := by
  intro s n h hn p hok hb h0
  have hs : s.stringAt (s.readReg 10#5) n := ⟨hn, fun k hk => ⟨hok k hk.le, hb k hk⟩⟩
  rw [exec_ecall, State.systemCall_printString h, State.callPrintString, State.recordAlone_ecall_op1,
    State.printString_ended hs (hok n le_rfl) h0]
  exact State.endCall_output (by simp [h]) _ _

/-- Settles O23: the loop passes over the bytes before the one that faults; with no zero byte and no fault it uses up its fuel. -/
theorem ecallStringStops : Obligations.EcallStringStops := by
  refine ⟨fun s n h hn hs hok => ?_, fun s h hall => ?_⟩
  · rw [exec_ecall, State.systemCall_printString h, State.callPrintString, State.recordAlone_ecall_op1,
      State.printString_faulted ⟨hn, hs⟩ hok]
    rfl
  · rw [exec_ecall, State.systemCall_printString h, State.callPrintString, State.printString, State.readString_endless hall]
    rfl

/-- Settles O24: the guard of the exit reads the stack pointer that the instruction started with. -/
theorem ecallExits : Obligations.EcallExits := by
  intro s h
  rw [exec_ecall, State.systemCall_exit h]
  refine ⟨_, rfl, State.exitRun_eq _, fun hfloor => ?_⟩
  have hguard : ¬ ((s.count 0 1).readReg 2#5).toNat < (s.count 0 1).params.stackFloor.toNat := hfloor.not_gt
  rw [State.exitRun_eq, if_neg hguard]
  rfl

/-- Settles O25: the queue loses its head, which `x10` takes. -/
theorem ecallReads : Obligations.EcallReads := by
  refine fun s => ⟨fun c rest h hin => ?_, fun n rest h hin => ?_⟩
  · rw [exec_ecall, State.systemCall_readChar h hin, State.endCall_input (.inl h)]
    simp only [State.consume, hin, List.tail_cons]
  · rw [exec_ecall, State.systemCall_readInt h hin, State.endCall_input (.inr h)]
    simp only [State.consume, hin, List.tail_cons]

/-- Settles O26: the two waits are one fact of the Memory stage, and an unknown number fails every test of it. -/
theorem ecallWaitsAndUnknown : Obligations.EcallWaitsAndUnknown := by
  refine fun s => ⟨fun h hin => ?_, fun h hin => ?_, fun h => ?_⟩
  · rw [exec_ecall, State.systemCall_waits (.inl ⟨h, hin⟩)]
    rfl
  · rw [exec_ecall, State.systemCall_waits (.inr ⟨h, hin⟩)]
    rfl
  · rw [exec_ecall, State.systemCall_unknown h, State.recordAlone_ecall_op2]
    simp only [State.endCall, State.emit_nil]
    rfl

/-- Settles O41: step 1 and the guards leave the record in `E` and the waiting input. -/
theorem blockingReadSuspends : Obligations.BlockingReadSuspends := by
  intro s e hrun hguard he hr hw hk hin
  have hstuck : s.cycleStart.memoryAccess e = .stuck .awaitingConsoleInput := by
    rw [State.memoryAccess_ecall hr hw hk, State.systemCall_waits (by simpa using hin)]
  rw [step_of_running hrun hguard]
  simp [State.afterGuards, State.memoryStage, he, hstuck]

end

section
/-! SUPPORT. The integer fused multiply-accumulate kinds (spec/45_fused_multiply.md R260 to R266): their signed results modulo 2^32
are word arithmetic. -/

namespace Sys2Proof.Machine

/-- Reduction modulo 2^32 commutes with subtraction, as the library says of addition, multiplication and negation. -/
theorem ofInt_sub (m n : Int) : BitVec.ofInt 32 (m - n) = BitVec.ofInt 32 m - BitVec.ofInt 32 n := by
  rw [Int.sub_eq_add_neg, BitVec.ofInt_add, BitVec.ofInt_neg, ← BitVec.sub_eq_add_neg]

end Sys2Proof.Machine

open Sys2Proof Sys2Proof.Machine

/-- Settles O14: with the signed results restated as word arithmetic, as the rules of the kinds write them, every rule gives its
ALU result. -/
theorem fusedResults : Obligations.FusedResults := by
  intro s rd rs1 rs2 rs3 rm a b c
  simp only [BitVec.ofInt_add, ofInt_sub, BitVec.ofInt_mul, BitVec.ofInt_neg, a, b, c, BitVec.ofInt_toInt]
  and_intros <;> exact exec_alu rfl nofun rfl

end

section
/-! SUPPORT. Integer multiply, divide and remainder (spec/46_multiply_divide.md R270 to R281): the words of an exact product, the
library's divisions of words, and `exec` of a division on and off the corners. -/

namespace Sys2Proof.Machine

/-! ### The words of a 64-bit product (R270, R271) -/

theorem extractLsb'_low_ofInt (n : Int) : (BitVec.ofInt 64 n).extractLsb' 0 32 = BitVec.ofInt 32 n := by
  refine BitVec.eq_of_toNat_eq ?_
  simp only [BitVec.extractLsb'_toNat, BitVec.toNat_ofInt]
  omega

theorem extractLsb'_high_ofInt (n : Int) : (BitVec.ofInt 64 n).extractLsb' 32 32 = highWord n := by
  refine BitVec.eq_of_toNat_eq ?_
  simp only [highWord, BitVec.extractLsb'_toNat, BitVec.toNat_ofInt, Nat.shiftRight_eq_div_pow]
  omega

/-- A factor read as signed is sign-extended. -/
theorem signExtend_eq_ofInt (a : Word) : a.signExtend 64 = BitVec.ofInt 64 a.toInt := rfl

/-- A factor read as unsigned is zero-extended. -/
theorem setWidth_eq_ofInt (a : Word) : a.setWidth 64 = BitVec.ofInt 64 a.toNat := by
  rw [BitVec.ofInt_natCast, BitVec.ofNat_toNat]

/-! ### Quotients and remainders (R281) -/

/-- The signed remainder has the sign of the dividend. -/
theorem tmod_mul_dividend_nonneg (m n : Int) : 0 ≤ m.tmod n * m := by
  rcases le_total 0 m with hm | hm
  · exact mul_nonneg (Int.tmod_nonneg n hm) hm
  · have h : 0 ≤ (-m).tmod n := Int.tmod_nonneg n (by omega)
    rw [Int.neg_tmod] at h
    exact mul_nonneg_of_nonpos_of_nonpos (by omega) hm

/-- The signed remainder is smaller than the divisor. -/
theorem natAbs_tmod_lt (m : Int) {n : Int} (hn : n ≠ 0) : (m.tmod n).natAbs < n.natAbs := by
  rw [Int.natAbs_tmod]
  exact Nat.mod_lt _ (Int.natAbs_pos.2 hn)

variable (a b : Word)

/-- The quotient of DIV, modulo 2^32, is the library's signed division. -/
theorem ofInt_tdiv : BitVec.ofInt 32 (a.toInt.tdiv b.toInt) = a.sdiv b := by
  refine BitVec.eq_of_toInt_eq ?_
  rw [BitVec.toInt_ofInt, BitVec.toInt_sdiv]

/-- The remainder of REM is the library's signed remainder. -/
theorem ofInt_tmod : BitVec.ofInt 32 (a.toInt.tmod b.toInt) = a.srem b := by
  rw [← BitVec.toInt_srem, BitVec.ofInt_toInt]

/-- Unsigned division leaves the remainder `a - b * q`. -/
theorem umod_eq_sub_mul_udiv : a % b = a - b * (a / b) := by
  have h : b * (a / b) + a % b = a := by
    refine BitVec.eq_of_toNat_eq ?_
    rw [BitVec.toNat_add, BitVec.toNat_mul, BitVec.toNat_udiv, BitVec.toNat_umod, Nat.mod_add_mod, Nat.div_add_mod,
      Nat.mod_eq_of_lt a.isLt]
  exact eq_sub_of_add_eq' h

/-! ### The corners (R280) -/

variable {a b}

theorem signedCorner_iff : signedCorner a b = true ↔ b = 0#32 ∨ (a = 0x80000000#32 ∧ b = 0xFFFFFFFF#32) := by
  simp [signedCorner]

theorem unsignedCorner_iff : unsignedCorner a b = true ↔ b = 0#32 := by
  simp [unsignedCorner]

variable {p : Params} {k : Kind} {d : DRec} {corner : Bool} {riscV value v : Word}

theorem divideOut_off_corner (hc : ¬corner = true) : divideOut p k d corner riscV value = ExOut.alu value :=
  if_neg hc

theorem divideOut_corner_fault (hp : p.divCorner = .fault) (hc : corner = true) :
    divideOut p k d corner riscV value = ExOut.raise (.divideFault k d.op1 d.op2) := by
  rw [divideOut, if_pos hc, hp]

theorem divideOut_corner_riscV (hp : p.divCorner = .riscV) (hc : corner = true) (hv : riscV = v) :
    divideOut p k d corner riscV value = ExOut.alu v := by
  rw [divideOut, if_pos hc, hp, hv]

/-- An instruction whose kind's rule raises an event ends the run and does nothing else (R325). -/
theorem exec_raise {i : Instr} {s : State} {e : FatalEvent} (hb : i.kind.isBranch = false)
    (he : executeKind i.kind s.params (s.snapshot s.pc (encode i) i) = ExOut.raise e) :
    exec i s = .next (s.raise e) := by
  rw [exec_eq]
  exact runAlone_raise hb he

end Sys2Proof.Machine

open Sys2Proof Sys2Proof.Machine

/-- Settles O11: a product of extended factors is the exact product modulo 2^64, whose words are the results of the rules. -/
theorem multiplyResults : Obligations.MultiplyResults := by
  intro s rd rs1 rs2 a b
  simp only [signExtend_eq_ofInt, setWidth_eq_ofInt, ← BitVec.ofInt_mul, extractLsb'_low_ofInt, extractLsb'_high_ofInt]
  rw [BitVec.ofInt_mul, BitVec.ofInt_toInt, BitVec.ofInt_toInt]
  and_intros <;> exact exec_alu rfl nofun rfl

/-- Settles O12: the quotients and remainders are those of the library, and the one signed quotient that does not fit a word is
that of a corner. -/
theorem divideResults : Obligations.DivideResults := by
  intro s rd rs1 rs2 a b
  refine ⟨fun hzero hover => ?signed, fun hzero => ?unsigned⟩
  case signed =>
    have hc : ¬signedCorner a b = true := mt signedCorner_iff.1 (not_or.2 ⟨hzero, hover⟩)
    have hq : (a.sdiv b).toInt = a.toInt.tdiv b.toInt := BitVec.toInt_sdiv_of_ne_or_ne a b (not_and_or.1 hover)
    have hb : b.toInt ≠ 0 := fun h => hzero (BitVec.eq_of_toInt_eq h)
    refine ⟨a.sdiv b, a.srem b, ?div, ?rem, ?laws⟩
    case div =>
      rw [← ofInt_tdiv]
      exact exec_alu rfl nofun (divideOut_off_corner hc)
    case rem =>
      rw [← ofInt_tmod]
      exact exec_alu rfl nofun (divideOut_off_corner hc)
    case laws =>
      rw [hq, BitVec.toInt_srem]
      exact ⟨rfl, (Int.mul_tdiv_add_tmod ..).symm, natAbs_tmod_lt _ hb, tmod_mul_dividend_nonneg ..⟩
  case unsigned =>
    have hc : ¬unsignedCorner a b = true := mt unsignedCorner_iff.1 hzero
    refine ⟨a / b, a % b, ?divu, ?remu, BitVec.toNat_udiv, umod_eq_sub_mul_udiv a b, BitVec.toNat_umod⟩
    case divu =>
      rw [BitVec.udiv_def]
      exact exec_alu rfl nofun (divideOut_off_corner hc)
    case remu =>
      rw [BitVec.umod_def]
      exact exec_alu rfl nofun (divideOut_off_corner hc)

/-- Settles O13: each rule is a division with its corner test, and the row of the table is chosen by `b = 0`, which the signed
overflow excludes. -/
theorem divideCorners : Obligations.DivideCorners := by
  intro s rd rs1 rs2 a b
  refine ⟨fun hp => ⟨fun hcorner => ?_, fun hzero => ?_⟩, fun hp => ⟨fun hzero => ?_, fun hover => ?_⟩⟩
  · have hc : signedCorner a b = true := signedCorner_iff.2 hcorner
    exact ⟨exec_raise rfl (divideOut_corner_fault hp hc), exec_raise rfl (divideOut_corner_fault hp hc)⟩
  · have hc : unsignedCorner a b = true := unsignedCorner_iff.2 hzero
    exact ⟨exec_raise rfl (divideOut_corner_fault hp hc), exec_raise rfl (divideOut_corner_fault hp hc)⟩
  · have hs : signedCorner a b = true := signedCorner_iff.2 (.inl hzero)
    have hu : unsignedCorner a b = true := unsignedCorner_iff.2 hzero
    exact ⟨exec_alu rfl nofun (divideOut_corner_riscV hp hs (if_pos hzero)),
      exec_alu rfl nofun (divideOut_corner_riscV hp hs (if_pos hzero)),
      exec_alu rfl nofun (divideOut_corner_riscV hp hu rfl), exec_alu rfl nofun (divideOut_corner_riscV hp hu rfl)⟩
  · have hs : signedCorner a b = true := signedCorner_iff.2 (.inr hover)
    have hzero : ¬b = 0#32 := by simp [hover.2]
    exact ⟨exec_alu rfl nofun (divideOut_corner_riscV hp hs (if_neg hzero)),
      exec_alu rfl nofun (divideOut_corner_riscV hp hs (if_neg hzero))⟩

end

section
/-! SUPPORT. The consumer after the hazard tiers (R350 to R361): only its operands change, and, when no tier claims a stall, each
operand that it reads has the value that its register holds once the producers have written back. -/

namespace Sys2Proof.Machine

/-! ### The three operands alike -/

/-- The operands of an instruction: its first, second and third source. -/
inductive Operand where
  | first | second | third

/-- The kind reads the operand (R132). -/
def Operand.readBy : Operand → Kind → Bool
  | .first => Kind.readsRs1
  | .second => Kind.readsRs2
  | .third => Kind.readsRs3

/-- The register that an instruction names as the operand's source (R131). -/
def Operand.sourceIn (i : Instr) : Operand → RegIdx
  | .first => i.rs1
  | .second => i.rs2
  | .third => i.rs3

/-- The register that a record names as the operand's source. -/
def DRec.source (d : DRec) : Operand → RegIdx
  | .first => d.rs1
  | .second => d.rs2
  | .third => d.rs3

/-- The operand's value in a record. -/
def DRec.operand (d : DRec) : Operand → Word
  | .first => d.op1
  | .second => d.op2
  | .third => d.op3

/-- An instruction names `x0` for an operand that its kind does not read (R131). -/
theorem Operand.sourceIn_of_not_read {i : Instr} : ∀ {o : Operand}, o.readBy i.kind = false → o.sourceIn i = 0#5
  | .first, h => by cases i with
    | lui | auipc | jal => rfl
    | _ => cases h
  | .second, h => by cases i with
    | lui | auipc | jal | jalr | lb | lh | lw | lbu | lhu | addi | slti | sltiu | xori | ori | andi | slli | srli | srai => rfl
    | _ => cases h
  | .third, h => by cases i with
    | fmadd | fmsub | fnmsub | fnmadd => cases h
    | _ => rfl

variable {d : DRec} {k : Kind} {o : Operand}

/-- A record reads the sources of the operands that its kind reads (R350). -/
theorem DRec.reads_source (hk : d.kind = .real k) (ho : o.readBy k = true) : d.reads (d.source o) = true := by
  cases o <;> simp_all [DRec.reads, DRec.source, Operand.readBy]

/-- Forwarding sets the operands that the record reads from the register (R354). -/
theorem DRec.forward_operand (hk : d.kind = .real k) (r : RegIdx) (v : Word) :
    (d.forward r v).operand o = if (o.readBy k && d.source o == r) = true then v else d.operand o := by
  unfold DRec.forward
  rw [hk]
  cases o <;> rfl

/-! ### Only the operands change -/

/-- `d'` is `d` but for its operands. -/
def DRec.ReOperanded (d d' : DRec) : Prop := ∃ a b c, d' = { d with op1 := a, op2 := b, op3 := c }

theorem DRec.ReOperanded.refl (d : DRec) : d.ReOperanded d := ⟨_, _, _, rfl⟩

theorem DRec.ReOperanded.source {d' : DRec} (h : d.ReOperanded d') (o : Operand) : d'.source o = d.source o := by
  obtain ⟨a, b, c, rfl⟩ := h
  cases o <;> rfl

theorem DRec.ReOperanded.pc {d' : DRec} (h : d.ReOperanded d') : d'.pc = d.pc := by
  obtain ⟨a, b, c, rfl⟩ := h
  rfl

theorem DRec.ReOperanded.kind {d' : DRec} (h : d.ReOperanded d') : d'.kind = d.kind := by
  obtain ⟨a, b, c, rfl⟩ := h
  rfl

/-- Forwarding supplies operands only (R354). -/
theorem DRec.ReOperanded.forward {d' : DRec} (h : d.ReOperanded d') (r : RegIdx) (v : Word) :
    d.ReOperanded (d'.forward r v) := by
  obtain ⟨a, b, c, rfl⟩ := h
  unfold DRec.forward
  split
  · exact ⟨a, b, c, rfl⟩
  · exact ⟨_, _, _, rfl⟩

/-- What the tiers keep of a consumer that they leave or forward to. -/
theorem hazardTiers_induction {P : DRec → Prop} {par : Params} {p1 p2 p3 : Option Producer} (h0 : P d)
    (hforward : ∀ d' r v, P d' → P (d'.forward r v)) : P (hazardTiers par d p1 p2 p3).dn := by
  have step : ∀ (h : Hazard) (tier : Hazard → Params → Producer → Hazard) (q : Option Producer),
      (∀ p, (tier h par p).dn = h.dn ∨ (tier h par p).dn = h.dn.forward p.dest p.value) → P h.dn →
      P (h.optional tier par q).dn := by
    intro h tier q htier hP
    cases q with
    | none => exact hP
    | some p => rcases htier p with hp | hp <;> simp only [Hazard.optional, hp, hP, hforward]
  exact step _ _ _ (fun p => Hazard.tierLater_dn _ par 1#2 p) (step _ _ _ (fun p => Hazard.tierLater_dn _ par 2#2 p)
    (step _ _ _ (fun p => Hazard.tier1_dn _ par p) h0))

/-- The tiers supply operands only (R354). -/
theorem hazardTiers_reOperanded (par : Params) (p1 p2 p3 : Option Producer) :
    d.ReOperanded (hazardTiers par d p1 p2 p3).dn :=
  hazardTiers_induction (.refl d) fun _ r v h => h.forward r v

theorem hazardLogic_dn_some (par : Params) (d : DRec) (en : Option ERec) (mn m : Option MRec) :
    ∃ d', (hazardLogic par (some d) en mn m).dn = some d' ∧ d.ReOperanded d' :=
  ⟨_, rfl, hazardTiers_reOperanded ..⟩

/-- They leave an operand that the consumer does not read (R350). -/
theorem hazardTiers_operand_of_not_read (par : Params) (p1 p2 p3 : Option Producer) (hk : d.kind = .real k)
    (ho : o.readBy k = false) : (hazardTiers par d p1 p2 p3).dn.operand o = d.operand o := by
  refine (hazardTiers_induction (P := fun d' => d'.kind = .real k ∧ d'.operand o = d.operand o) ⟨hk, rfl⟩ ?_).2
  rintro d' r v ⟨hk', hv⟩
  refine ⟨?_, by rw [DRec.forward_operand hk', ho]; exact hv⟩
  exact ((DRec.ReOperanded.refl d').forward r v).kind.trans hk'

/-! ### What the producers make of a register -/

/-- The producer's register write reaches `r` (R34, R352). -/
def Producer.sets (p : Producer) (r : RegIdx) : Bool := p.writeReg && p.dest == r && r != 0#5

/-- The value of `r` once the producer, if there is one, has written back over `old`. -/
def Producer.writeOver (q : Option Producer) (r : RegIdx) (old : Word) : Word :=
  match q with
  | none => old
  | some p => if p.sets r then p.value else old

/-- `h` carries on the consumer `d`, and `f` gives the value of the source of `o` from its value before the producers seen so far:
if a tier has supplied it, the operand's value, else what it was, as the operand is. -/
structure Hazard.Tracks (h : Hazard) (d : DRec) (o : Operand) (f : Word → Word) : Prop where
  dn : d.ReOperanded h.dn
  kept : d.source o ∉ h.supplied → h.dn.operand o = d.operand o
  value : ∀ w, f w = if d.source o ∈ h.supplied then h.dn.operand o else w

/-- What a tier that claims nothing does with a producer: it leaves the consumer, whose register the producer does not set
unless it has been supplied, or it forwards to it. -/
def Hazard.Passes (h h' : Hazard) (r : RegIdx) (p : Producer) : Prop :=
  (h' = h ∧ (p.sets r = true → r ∈ h.supplied)) ∨
    (h' = h.forward p ∧ p.writeReg = true ∧ p.dest ≠ 0#5 ∧ p.dest ∉ h.supplied)

theorem Hazard.Tracks.pass {h h' : Hazard} {f : Word → Word} {p : Producer} (ht : h.Tracks d o f) (hk : d.kind = .real k)
    (ho : o.readBy k = true) (hp : h.Passes h' (d.source o) p) :
    h'.Tracks d o (fun w => f (Producer.writeOver (some p) (d.source o) w)) := by
  rcases hp with ⟨rfl, hset⟩ | ⟨rfl, hw, h0, hnew⟩
  · refine ⟨ht.dn, ht.kept, fun w => ?_⟩
    rw [ht.value]
    by_cases hs : d.source o ∈ h'.supplied
    · rw [if_pos hs, if_pos hs]
    · rw [if_neg hs, if_neg hs, Producer.writeOver, if_neg (mt hset hs)]
  · have hk' : h.dn.kind = .real k := by
      obtain ⟨a, b, c, hd⟩ := ht.dn
      rw [hd, ← hk]
    have hop : (h.forward p).dn.operand o = if d.source o = p.dest then p.value else h.dn.operand o := by
      simp [Hazard.forward, DRec.forward_operand hk', ho, ht.dn.source]
    have hsup : (h.forward p).supplied = p.dest :: h.supplied := rfl
    refine ⟨ht.dn.forward _ _, fun hs => ?_, fun w => ?_⟩
    · rw [hsup, List.mem_cons, not_or] at hs
      rw [hop, if_neg hs.1, ht.kept hs.2]
    · rw [ht.value, hop, hsup]
      by_cases hr : d.source o = p.dest
      · rw [hr, if_neg hnew, if_pos List.mem_cons_self, if_pos rfl]
        simp [Producer.writeOver, Producer.sets, hw, h0]
      · simp [Producer.writeOver, Producer.sets, hr, Ne.symm hr]

theorem Hazard.claims_claim_ne_none (h : Hazard) (n : BitVec 2) (p : Producer) : (h.claims n p).claim ≠ none := by
  unfold Hazard.claims
  split <;> simp [*]

variable {h : Hazard} {par : Params} {p : Producer} {r : RegIdx}

/-- Tier 1 without a claim: no load-class producer sets a register that the consumer reads (R355 to R357). -/
theorem Hazard.tier1_passes (hclaim : (h.tier1 par p).claim = none) (hr : h.dn.reads r = true) (hsup : h.supplied = []) :
    h.Passes (h.tier1 par p) r p ∧ (p.loadClass = true → p.sets r = false) := by
  unfold Hazard.tier1 at hclaim ⊢
  have hmatch : p.sets r = true → h.matched p = true := by
    simp only [Producer.sets, Hazard.matched, Bool.and_eq_true, beq_iff_eq]
    rintro ⟨⟨hw, rfl⟩, h0⟩
    exact ⟨⟨hw, h0⟩, hr⟩
  split_ifs at hclaim ⊢ with hm hf hl
  · exact (h.claims_claim_ne_none _ _ hclaim).elim
  · simp only [Hazard.matched, Bool.and_eq_true, bne_iff_ne] at hm
    exact ⟨.inr ⟨rfl, hm.1.1, hm.1.2, by simp [hsup]⟩, fun hl' => absurd hl' hl⟩
  · exact (h.claims_claim_ne_none _ _ hclaim).elim
  · have hnot : ¬p.sets r = true := mt hmatch hm
    exact ⟨.inl ⟨rfl, fun hs => absurd hs hnot⟩, fun _ => by simpa using hnot⟩

/-- Tiers 2 and 3 without a claim (R358, R359). -/
theorem Hazard.tierLater_passes {n : BitVec 2} (hx0 : par.x0Transient = false) (hclaim : (h.tierLater par n p).claim = none)
    (hr : h.dn.reads r = true) : h.Passes (h.tierLater par n p) r p := by
  unfold Hazard.tierLater at hclaim ⊢
  split_ifs at hclaim ⊢ with hf hm hm
  · simp only [Hazard.laterMatch, hx0, Bool.false_or, Bool.and_eq_true, bne_iff_ne, Bool.not_eq_true', List.contains_eq_mem,
      decide_eq_false_iff_not] at hm
    exact .inr ⟨rfl, hm.1.1.1, hm.1.1.2, hm.2⟩
  · refine .inl ⟨rfl, fun hs => ?_⟩
    simp only [Producer.sets, Bool.and_eq_true, beq_iff_eq] at hs
    obtain ⟨⟨hw, rfl⟩, h0⟩ := hs
    simpa [Hazard.laterMatch, hx0, hw, hr, h0] using hm
  · exact (h.claims_claim_ne_none _ _ hclaim).elim
  · refine .inl ⟨rfl, fun hs => absurd ?_ hm⟩
    simp only [Producer.sets, Bool.and_eq_true, beq_iff_eq] at hs
    obtain ⟨⟨hw, rfl⟩, h0⟩ := hs
    simp [Hazard.matched, hw, hr, bne_iff_ne.1 h0]

/-- A claim stands to the end: with none after tier 2 or 3 there was none before it (R360). -/
theorem Hazard.claim_of_tierLater {n : BitVec 2} {q : Option Producer}
    (hclaim : (h.optional (fun h par p => h.tierLater par n p) par q).claim = none) : h.claim = none := by
  cases q with
  | none => exact hclaim
  | some p =>
    change (h.tierLater par n p).claim = none at hclaim
    unfold Hazard.tierLater at hclaim
    split_ifs at hclaim
    · exact hclaim
    · exact hclaim
    · exact (h.claims_claim_ne_none _ _ hclaim).elim
    · exact hclaim

variable {f : Word → Word} {q : Option Producer}

theorem Hazard.Tracks.operand_eq (ht : h.Tracks d o f) : h.dn.operand o = f (d.operand o) := by
  rw [ht.value]
  split_ifs with hs
  · rfl
  · exact ht.kept hs

theorem Hazard.Tracks.reads (ht : h.Tracks d o f) (hk : d.kind = .real k) (ho : o.readBy k = true) :
    h.dn.reads (d.source o) = true := by
  rw [← ht.dn.source]
  exact DRec.reads_source (ht.dn.kind.trans hk) ho

/-- What the tiers start from. -/
def Hazard.start (d : DRec) : Hazard := { dn := d, claim := none, supplied := [], fwdTiers := 0 }

theorem Hazard.start_tracks (d : DRec) (o : Operand) : (Hazard.start d).Tracks d o id :=
  ⟨.refl d, fun _ => rfl, fun _ => by simp [Hazard.start]⟩

theorem Hazard.Tracks.tier1 (hk : d.kind = .real k) (ho : o.readBy k = true)
    (hclaim : ((Hazard.start d).optional Hazard.tier1 par q).claim = none) :
    ((Hazard.start d).optional Hazard.tier1 par q).Tracks d o (Producer.writeOver q (d.source o)) ∧
      ∀ p, q = some p → p.loadClass = true → p.sets (d.source o) = false := by
  have ht := Hazard.start_tracks d o
  cases q with
  | none => exact ⟨ht, nofun⟩
  | some p =>
    obtain ⟨hpass, hload⟩ := Hazard.tier1_passes hclaim (ht.reads hk ho) rfl
    exact ⟨ht.pass hk ho hpass, fun p' hp' => Option.some.inj hp' ▸ hload⟩

theorem Hazard.Tracks.tierLater {n : BitVec 2} (ht : h.Tracks d o f) (hx0 : par.x0Transient = false) (hk : d.kind = .real k)
    (ho : o.readBy k = true) (hclaim : (h.optional (fun h par p => h.tierLater par n p) par q).claim = none) :
    (h.optional (fun h par p => h.tierLater par n p) par q).Tracks d o (fun w => f (Producer.writeOver q (d.source o) w)) := by
  cases q with
  | none => exact ht
  | some p => exact ht.pass hk ho (Hazard.tierLater_passes hx0 hclaim (ht.reads hk ho))

/-- With no claim an operand that the consumer reads has the value of its source once the producers have written back, oldest first,
and no load-class producer in Execute sets that source (R354 to R361). -/
theorem hazardTiers_operand {p1 p2 p3 : Option Producer} (hx0 : par.x0Transient = false)
    (hclaim : (hazardTiers par d p1 p2 p3).claim = none) (hk : d.kind = .real k) (ho : o.readBy k = true) :
    (hazardTiers par d p1 p2 p3).dn.operand o = Producer.writeOver p1 (d.source o) (Producer.writeOver p2 (d.source o)
      (Producer.writeOver p3 (d.source o) (d.operand o))) ∧
    ∀ p, p1 = some p → p.loadClass = true → p.sets (d.source o) = false := by
  have hclaim2 := Hazard.claim_of_tierLater hclaim
  obtain ⟨ht, hload⟩ := Hazard.Tracks.tier1 hk ho (Hazard.claim_of_tierLater hclaim2)
  exact ⟨((ht.tierLater hx0 hk ho hclaim2).tierLater hx0 hk ho hclaim).operand_eq, hload⟩

/-! ### Claims -/

/-- A claim is of at least one cycle (R48). -/
def Hazard.ClaimsSome (h : Hazard) : Prop := ∀ c, h.claim = some c → c.length ≠ 0#2

theorem Hazard.ClaimsSome.claims {n : BitVec 2} (hc : h.ClaimsSome) (hn : n ≠ 0#2) : (h.claims n p).ClaimsSome := by
  unfold Hazard.claims
  split
  · exact hc
  · intro c h'
    obtain rfl := Option.some.inj h'
    exact hn

theorem Hazard.ClaimsSome.tier1 (hc : h.ClaimsSome) : (h.tier1 par p).ClaimsSome := by
  unfold Hazard.tier1
  split_ifs
  · exact hc.claims (by decide)
  · exact hc
  · exact hc.claims (by decide)
  · exact hc

theorem Hazard.ClaimsSome.tierLater {n : BitVec 2} (hc : h.ClaimsSome) (hn : n ≠ 0#2) : (h.tierLater par n p).ClaimsSome := by
  unfold Hazard.tierLater
  split_ifs
  · exact hc
  · exact hc
  · exact hc.claims hn
  · exact hc

theorem Hazard.ClaimsSome.optional {tier : Hazard → Params → Producer → Hazard} (hc : h.ClaimsSome)
    (htier : ∀ p, (tier h par p).ClaimsSome) (q : Option Producer) : (h.optional tier par q).ClaimsSome := by
  cases q with
  | none => exact hc
  | some p => exact htier p

/-- The length of a claim is 1, 2 or 3 (R48, R360). -/
theorem hazardLogic_claim_length {dn : Option DRec} {en : Option ERec} {mn m : Option MRec} {c : Claim}
    (hc : (hazardLogic par dn en mn m).claim = some c) : c.length ≠ 0#2 := by
  cases dn with
  | none => cases hc
  | some d =>
    have h0 : (Hazard.start d).ClaimsSome := nofun
    have h1 := h0.optional (tier := Hazard.tier1) (par := par) (fun p => h0.tier1) (en.map ERec.producer)
    have h2 := h1.optional (tier := Hazard.tier2) (par := par) (fun p => h1.tierLater (by decide)) (mn.map MRec.producer)
    exact h2.optional (tier := Hazard.tier3) (par := par) (fun p => h2.tierLater (by decide)) (m.map MRec.producer) c hc

end Sys2Proof.Machine
end

section
/-! SUPPORT. What the operations read of the state: the Memory stage the memory, the waiting input and the parameters, Decode the
read ports and the draws, and what the program sees decides what it sees next. -/

namespace Sys2Proof.Machine

variable {s t u v : State}

/-! ### What the stages read -/

theorem State.memRead_congr (hp : s.params = t.params) (hm : s.mem = t.mem) (a : Word) (n : Nat) (acc : Access) :
    s.memRead a n acc = t.memRead a n acc := by
  simp [State.memRead, hp, hm]

theorem State.readString_congr (hp : s.params = t.params) (hm : s.mem = t.mem) (fuel : Nat) (p : Word) :
    s.readString fuel p = t.readString fuel p := by
  induction fuel generalizing p with
  | zero => rfl
  | succ fuel ih => simp only [State.readString, State.memRead_congr hp hm, ih]

/-- The Memory stage reads the memory, the waiting input and the parameters (R327). -/
theorem State.memoryAccess_congr (hp : s.params = t.params) (hm : s.mem = t.mem) (hc : s.env.chars = t.env.chars)
    (hi : s.env.ints = t.env.ints) (e : ERec) : s.memoryAccess e = t.memoryAccess e := by
  simp only [State.memoryAccess, State.loadAccess, State.storeAccess, State.systemCall, State.callPrintString,
    State.callPrintChar, State.callPrintInt, State.printString, State.callReadChar, State.callReadInt, State.memRead_congr hp hm,
    State.readString_congr hp hm, hp, hc, hi]

/-- Steps 1 and 2 leave what the Memory stage reads. -/
@[simp] theorem State.cycleStart_memoryAccess (s : State) (e : ERec) : s.cycleStart.memoryAccess e = s.memoryAccess e :=
  State.memoryAccess_congr (by simp) (by simp) (by simp) (by simp) e

/-- The snapshot reads the read ports (R324). -/
theorem State.snapshot_congr (hr : ∀ r, s.readReg r = t.readReg r) (pc inst : Word) (i : Instr) :
    s.snapshot pc inst i = t.snapshot pc inst i := by
  simp [State.snapshot, hr]

/-- Decode reads the read ports, the draws and the parameters (R324). -/
theorem State.decodeRecord_congr (hp : s.params = t.params) (he : s.env = t.env) (hr : ∀ r, s.readReg r = t.readReg r)
    (f : FRec) : s.decodeRecord f = t.decodeRecord f := by
  simp only [State.decodeRecord, State.decodeInstr, State.snapshot_congr hr, hp, he]

/-- Execute reads the record in `D` and the parameters, which steps 1 and 2 leave (R325). -/
@[simp] theorem State.cycleStart_executeStage (s : State) : s.cycleStart.executeStage = s.executeStage := by
  simp [State.executeStage]

/-- Decode of the record that step 1 leaves in `F` (R320, R324). -/
theorem State.cycleStart_decodeStage {f : FRec} (hf : s.restoreOrTick.f.content = some f) :
    s.cycleStart.decodeStage = s.decodeRecord f := by
  simp only [State.decodeStage, State.cycleStart_f, hf]
  exact State.decodeRecord_congr (by simp) (by simp) (by simp) f

/-! ### What the program sees -/

/-- Two states under the same parameters in which the program sees the same, but for where it goes on (R346). -/
structure State.SameView (s t : State) : Prop where
  x : s.x = t.x
  mem : s.mem = t.mem
  console : s.console = t.console
  chars : s.env.chars = t.env.chars
  ints : s.env.ints = t.env.ints
  params : s.params = t.params

@[simp] theorem State.arch_pc (s : State) : s.arch.pc = s.pc := rfl

namespace State.SameView

theorem refl (s : State) : s.SameView s := ⟨rfl, rfl, rfl, rfl, rfl, rfl⟩

theorem symm (h : s.SameView t) : t.SameView s :=
  ⟨h.x.symm, h.mem.symm, h.console.symm, h.chars.symm, h.ints.symm, h.params.symm⟩

theorem trans (h : s.SameView t) (h' : t.SameView u) : s.SameView u :=
  ⟨h.x.trans h'.x, h.mem.trans h'.mem, h.console.trans h'.console, h.chars.trans h'.chars, h.ints.trans h'.ints,
    h.params.trans h'.params⟩

theorem arch (h : s.SameView t) (pc : Word) : { s.arch with pc := pc } = { t.arch with pc := pc } := by
  simp [State.arch, h.x, h.mem, h.console, h.chars, h.ints]

theorem of_arch {pc : Word} (h : { s.arch with pc := pc } = t.arch) (hp : s.params = t.params) : s.SameView t := by
  simp only [State.arch, Arch.mk.injEq] at h
  obtain ⟨hx, -, hmem, hconsole, hchars, hints⟩ := h
  exact ⟨hx, hmem, hconsole, hchars, hints, hp⟩

theorem memoryAccess (h : s.SameView t) (e : ERec) : s.memoryAccess e = t.memoryAccess e :=
  State.memoryAccess_congr h.params h.mem h.chars h.ints e

theorem writeBack (h : s.SameView t) (m : MRec) : (s.writeBack m).SameView (t.writeBack m) :=
  ⟨by simp [State.writeBack_x_eq, h.x], by simp [h.mem], by simp [h.console], by simp [h.chars], by simp [h.ints],
    by simp [h.params]⟩

theorem writeBackStage (h : s.SameView t) (hm : s.m = t.m) : s.writeBackStage.SameView t.writeBackStage := by
  unfold State.writeBackStage
  rw [hm]
  split
  · exact h
  · exact h.writeBack _

theorem performStore (h : s.SameView t) (st : Option PendingStore) : (s.performStore st).SameView (t.performStore st) := by
  cases st with
  | none => exact h
  | some st => exact { h with mem := by simp [h.mem] }

theorem emit (h : s.SameView t) (out : List OutEvent) : (s.emit out).SameView (t.emit out) :=
  { h with console := by simp [h.console] }

theorem consume (h : s.SameView t) (c : Option InEvent) : (s.consume c).SameView (t.consume c) := by
  rcases c with _ | c | n
  · exact h
  · exact { h with console := by simp [State.consume, h.console], chars := by simp [State.consume, h.chars] }
  · exact { h with console := by simp [State.consume, h.console], ints := by simp [State.consume, h.ints] }

theorem applyEffects (h : s.SameView t) (fx : Effects) : (s.applyEffects fx).SameView (t.applyEffects fx) :=
  ((h.performStore _).emit _).consume _

/-- An Execute record runs to its end alike from two states that look alike. -/
theorem finish (h : s.SameView t) (e : ERec) : Option.Rel State.SameView (s.finish e) (t.finish e) := by
  unfold State.finish
  rw [h.memoryAccess e]
  split
  · exact .some ((h.applyEffects _).writeBack _)
  · exact .none

end State.SameView

/-- A completed cycle leaves what the program sees after WriteBack's write and the Memory stage's effects (R331). -/
theorem State.complete_sameView (s : State) (mn : Option MRec) (fx : Effects) :
    (s.complete (s.stages mn fx)).SameView (s.writeBackStage.applyEffects fx) := by
  obtain ⟨hchars, hints⟩ := s.decodeStage_env
  obtain ⟨hchars', hints', -, -⟩ := s.decodeStage.env.drawLatencies_keeps fx.accesses
  have hview : (({ s with env := (s.decodeStage.env.drawLatencies fx.accesses).2 }.logPredictor
      s.decodeStage.call).logPredictor s.executeStage.call).SameView s :=
    ⟨by simp, by simp, by simp, by simp [hchars', hchars], by simp [hints', hints], by simp⟩
  exact { (hview.writeBackStage (by simp)).applyEffects fx with }

/-- Steps 1 and 2 leave what the program sees (R320, R321). -/
theorem State.cycleStart_sameView (hx : s.x[0] = 0#32) : s.cycleStart.SameView s := by
  refine ⟨?_, by simp, by simp, by simp, by simp, by simp⟩
  rw [State.cycleStart_x, ← hx]
  simp

/-- The same, from the state before steps 1 and 2. -/
theorem State.cycleStart_complete_sameView (hx : s.x[0] = 0#32) (mn : Option MRec) (fx : Effects) :
    (s.cycleStart.complete (s.cycleStart.stages mn fx)).SameView (s.writeBackStage.applyEffects fx) :=
  (s.cycleStart.complete_sameView mn fx).trans (((State.cycleStart_sameView hx).writeBackStage (by simp)).applyEffects fx)

end Sys2Proof.Machine
end

section
/-! SUPPORT. Draining the pipeline after a completed cycle (R346): the instructions that were past Decode come out as before the
cycle, and where the front of the pipeline goes. -/

namespace Sys2Proof.Machine

variable {s t u v : State} {d : DRec} {k : Kind} {i : Instr}

/-! ### Draining -/

/-- What is in Execute, run to its end after what is older: a bubble does nothing. -/
def State.finishIfAny (s : State) (en : Option ERec) : Option State :=
  match en with
  | none => some s
  | some e => s.finish e

theorem State.drainOlder_eq (s : State) : s.drainOlder = s.writeBackStage.finishIfAny s.e.content := by
  unfold State.drainOlder State.finishIfAny
  cases s.e.content <;> rfl

theorem State.SameView.finishIfAny (h : s.SameView t) (en : Option ERec) :
    Option.Rel State.SameView (s.finishIfAny en) (t.finishIfAny en) := by
  cases en with
  | none => exact .some h
  | some e => exact h.finish e

/-- Execute of a record without an event is what the rule of its kind gives (R325). -/
theorem executeRecord_of_no_event {p : Params} (h : (executeRecord p d).event = none) :
    ∃ k, d.kind = .real k ∧ (executeKind k p d).event = none ∧
      executeRecord p d = { en := some ((executeKind k p d).record k d), ctrl := (executeKind k p d).ctrl,
                            penalty := mulPenalty k, call := (executeKind k p d).update d, hits := (executeKind k p d).hits d,
                            misses := (executeKind k p d).misses d, event := none } := by
  unfold executeRecord at h ⊢
  split at h
  · cases h
  · rename_i k hk
    dsimp only at h ⊢
    split at h
    · cases h
    · rename_i he
      exact ⟨k, hk, he, rfl⟩

theorem State.executeStage_of_none (hd : s.d.content = none) : s.executeStage = ExecuteOut.bubble := by
  simp [State.executeStage, hd]

theorem State.executeStage_of_some (hd : s.d.content = some d) : s.executeStage = executeRecord s.params d := by
  simp [State.executeStage, hd]

/-- Execute of a record with an event gives none (R325). -/
theorem executeRecord_en_of_event {p : Params} {w : FatalEvent} (h : (executeRecord p d).event = some w) :
    (executeRecord p d).en = none := by
  unfold executeRecord at h ⊢
  split at h
  · rfl
  · dsimp only at h ⊢
    split at h
    · rfl
    · cases h

/-- Draining when Execute has no event: the older instructions, then the record in `D`, and then its control-hazard target or the
front of the pipeline. -/
theorem State.drain_eq (h : s.executeStage.event = none) :
    s.drain = (s.drainOlder.bind fun o => o.finishIfAny s.executeStage.en).map
      fun o => { o.arch with pc := s.executeStage.ctrl.getD s.frontPC } := by
  unfold State.drain
  cases s.drainOlder with
  | none => rfl
  | some o =>
    cases hd : s.d.content with
    | none =>
      rw [State.executeStage_of_none hd]
      rfl
    | some d =>
      rw [State.executeStage_of_some hd] at h ⊢
      obtain ⟨k, -, -, he⟩ := executeRecord_of_no_event h
      simp [State.finishIfAny, he]

/-- Draining gives nothing when Execute has an event. -/
theorem State.drain_of_event {w : FatalEvent} (h : s.executeStage.event = some w) : s.drain = none := by
  unfold State.drain
  cases s.drainOlder with
  | none => rfl
  | some o =>
    cases hd : s.d.content with
    | none =>
      rw [State.executeStage_of_none hd] at h
      cases h
    | some d =>
      rw [State.executeStage_of_some hd] at h
      simp [executeRecord_en_of_event h]

/-! ### The older instructions -/

theorem State.writeBackStage_of_none (h : s.m.content = none) : s.writeBackStage = s := by
  simp [State.writeBackStage, h]

theorem State.writeBackStage_of_some {m : MRec} (h : s.m.content = some m) : s.writeBackStage = s.writeBack m := by
  simp [State.writeBackStage, h]

/-- After a completed cycle WriteBack's write gives what the program sees once the instructions that were in `M` and `E` have run to
their ends. -/
theorem State.Cycles.drainOlder (h : s.Cycles t) (hs : s.inv = true) :
    ∃ o, s.drainOlder = some o ∧ t.writeBackStage.SameView o := by
  obtain ⟨hw, -⟩ := State.inv_iff.1 hs
  obtain ⟨-, -, mn, fx, hm, -, rfl⟩ := h.cases
  have hview := State.cycleStart_complete_sameView hw.x0 mn fx
  have hlatch : (s.cycleStart.complete (s.cycleStart.stages mn fx)).m.content = mn :=
    Slot.commit_content _ (by simpa using hw.mStall)
  rw [State.drainOlder_eq]
  obtain ⟨he, rfl, rfl⟩ | ⟨e, m, he, hdone, rfl⟩ := hm <;> rw [State.cycleStart_e] at he <;> rw [he]
  · refine ⟨_, rfl, ?_⟩
    rw [State.writeBackStage_of_none hlatch]
    simpa using hview
  · have hfinish : s.writeBackStage.memoryAccess e = .done m fx := by
      rw [← hdone, s.cycleStart_memoryAccess]
      exact State.memoryAccess_congr (by simp) (by simp) (by simp) (by simp) e
    refine ⟨(s.writeBackStage.applyEffects fx).writeBack m, by simp [State.finishIfAny, State.finish, hfinish], ?_⟩
    rw [State.writeBackStage_of_some hlatch]
    exact hview.writeBack m

/-- A completed cycle has no event at Execute, and latches into `E` what Execute gives (R325, R334). -/
theorem State.Cycles.execute (h : s.Cycles t) :
    s.executeStage.event = none ∧ (s.e.stall = 0#2 → t.e.content = s.executeStage.en) := by
  obtain ⟨-, -, mn, fx, -, hy, rfl⟩ := h.cases
  obtain ⟨hevent, -, -⟩ := CycleOut.youngerEvent_eq_none.1 hy
  rw [← s.cycleStart_executeStage]
  exact ⟨hevent, fun hstall => Slot.commit_content _ (by simpa using hstall)⟩

theorem State.finishIfAny_params {en : Option ERec} (h : s.finishIfAny en = some t) : t.params = s.params := by
  unfold State.finishIfAny State.finish at h
  split at h
  · obtain rfl := Option.some.inj h
    rfl
  · split at h
    · obtain rfl := Option.some.inj h
      simp
    · cases h

/-- What a completed cycle leaves past Decode drains to what the whole pipeline past Decode drained to before it. -/
theorem State.Cycles.drainOlder_of_drain {a : Arch} (h : s.Cycles t) (hs : s.inv = true) (ha : s.drain = some a) :
    ∃ o, t.drainOlder = some o ∧ o.params = t.params ∧ { o.arch with pc := a.pc } = a ∧
      a.pc = s.executeStage.ctrl.getD s.frontPC := by
  obtain ⟨hw, -⟩ := State.inv_iff.1 hs
  obtain ⟨hevent, hlatch⟩ := h.execute
  obtain ⟨o, ho, hview⟩ := h.drainOlder hs
  rw [State.drain_eq hevent, ho, Option.bind_some, Option.map_eq_some_iff] at ha
  obtain ⟨o', ho', rfl⟩ := ha
  have hrel := hview.finishIfAny s.executeStage.en
  rw [← hlatch hw.eStall, ← State.drainOlder_eq, hlatch hw.eStall, ho'] at hrel
  generalize hx : t.drainOlder = x at hrel
  obtain ⟨hview'⟩ := hrel
  refine ⟨_, rfl, ?_, hview'.arch _, rfl⟩
  rw [State.drainOlder_eq] at hx
  simpa using State.finishIfAny_params hx

/-! ### The front of the pipeline -/

/-- Steps 1 and 2 leave the front of the pipeline: a restore puts the record held for replay back into `F`. -/
theorem State.cycleStart_frontPC (hw : s.WellMade) : s.cycleStart.frontPC = s.frontPC := by
  unfold State.frontPC
  simp only [State.cycleStart_f, State.cycleStart_fsm, State.cycleStart_pc]
  by_cases h0 : s.fsm.countdown = 0#2
  · rw [State.restoreOrTick_of_idle h0]
  obtain ⟨⟨g, hg, -⟩, -⟩ := hw.saved h0
  by_cases h1 : s.fsm.countdown = 1#2
  · simp [State.restoreOrTick_of_restore h1, h1, hg]
  · rcases countdown_eq_two_or_three h0 h1 with hc | hc <;> simp [State.restoreOrTick_of_tick h1 h0, hc, hg]

/-- With nothing in the FSM's window after step 1, the forward-fetcher flag is down (R373). -/
theorem State.cycleStart_flag (hs : s.inv = true) (hrun : s.status = .running) (h : s.cycleStart.fsm.countdown = 0#2) :
    s.cycleStart.fsm.forwardFetcher = false := by
  obtain ⟨-, hflag⟩ := State.inv_iff.1 hs
  replace hflag := hflag hrun
  rw [State.cycleStart_fsm] at h ⊢
  by_cases h0 : s.fsm.countdown = 0#2
  · simp [State.restoreOrTick_of_idle h0, hflag, h0]
  by_cases h1 : s.fsm.countdown = 1#2
  · simp [State.restoreOrTick_of_restore h1, hflag, h1]
  · rcases countdown_eq_two_or_three h0 h1 with hc | hc <;> simp [State.restoreOrTick_of_tick h1 h0, hc] at h

/-- The front of a pipeline whose FSM is idle. -/
theorem State.frontPC_of_idle (h : s.fsm.countdown = 0#2) : s.frontPC = (s.f.content.map (·.pc)).getD s.pc := by
  unfold State.frontPC
  rw [if_pos h]
  cases s.f.content <;> rfl

theorem State.frontPC_of_armed (h : s.fsm.countdown ≠ 0#2) : s.frontPC = (s.fsm.saved.map (·.pc)).getD s.pc := by
  unfold State.frontPC
  rw [if_neg h]
  cases s.fsm.saved <;> rfl

/-! ### `F` and `D` after a completed cycle -/

variable {mn : Option MRec} {fx : Effects} {c : CycleOut} {g : FRec}

/-- `D` takes the consumer unless a claim or a control hazard bubbles it (R334, R371, R337). -/
theorem State.complete_d_content (hstall : u.d.stall = 0#2) :
    (u.complete c).d.content = if c.haz.claim.isSome || c.exe.ctrl.isSome then none else c.haz.dn := by
  rw [State.complete_d, State.nextD, Slot.bubbleIf_content, Slot.commit_content _ hstall]

/-- `F` takes the fetched record unless the flag, a claim, a control hazard or a redirect bubbles it (R334, R373, R371, R337,
R338). -/
theorem State.complete_f_content (hstall : u.f.stall = 0#2) :
    (u.complete c).f.content = if u.fsm.forwardFetcher || claimBubblesF c.haz.claim || c.exe.ctrl.isSome || c.redirect.isSome
      then none else some c.fet.fn := by
  rw [State.complete_f, State.nextF, Slot.bubbleIf_content, Slot.commit_content _ hstall]

theorem State.fetchStage_pc (s : State) : s.fetchStage.fn.pc = s.pc := by
  unfold State.fetchStage
  split <;> rfl

/-- After a control hazard the front of the pipeline is its target (R337). -/
theorem State.complete_frontPC_of_hazard {target : Word} (hstall : u.f.stall = 0#2) (h : c.exe.ctrl = some target) :
    (u.complete c).frontPC = target := by
  rw [State.frontPC_of_idle (State.nextFsm_of_hazard h).1, State.complete_f_content hstall, State.complete_pc, h]
  simp [choosePC]

/-- After a claim it is the record to be replayed (R371). -/
theorem State.complete_frontPC_of_claim {q : Claim} (hctrl : c.exe.ctrl = none) (h : c.haz.claim = some q)
    (hq : q.length ≠ 0#2) (hg : u.f.content = some g) : (u.complete c).frontPC = g.pc := by
  rw [State.frontPC_of_armed] <;> simp [State.nextFsm_of_claim hctrl h, hg, hq]

/-- When nothing is decoded it stays (R370, R373). -/
theorem State.complete_frontPC_of_empty (hw : u.WellMade) (hflag : u.fsm.countdown = 0#2 → u.fsm.forwardFetcher = false)
    (hctrl : (u.stages mn fx).exe.ctrl = none) (hf : u.f.content = none) :
    (u.complete (u.stages mn fx)).frontPC = u.frontPC := by
  have hhaz := u.stages_haz_of_empty (mn := mn) (fx := fx) hf
  have hfsm : (u.complete (u.stages mn fx)).fsm = { u.fsm with forwardFetcher := false } :=
    State.nextFsm_of_none hctrl (by rw [hhaz])
  by_cases h0 : u.fsm.countdown = 0#2
  · rw [State.frontPC_of_idle (by rw [hfsm]; exact h0), State.frontPC_of_idle h0, State.complete_f_content hw.fStall]
    simp only [hctrl, hhaz, hflag h0, CycleOut.redirect, redirectTarget, claimBubblesF, hf]
    exact u.fetchStage_pc
  · obtain ⟨⟨g, hg, -⟩, -⟩ := hw.saved h0
    rw [State.frontPC_of_armed (by rw [hfsm]; exact h0), State.frontPC_of_armed h0, hfsm, hg]
    rfl

/-- When a record is latched into `D` it is where the decoder sends fetch (R37, R338). -/
theorem State.complete_frontPC_of_decoded (hw : u.WellMade) (h0 : u.fsm.countdown = 0#2) (hflag : u.fsm.forwardFetcher = false)
    (hctrl : (u.stages mn fx).exe.ctrl = none) (hclaim : (u.stages mn fx).haz.claim = none)
    (hd : (u.stages mn fx).haz.dn = some d) (hg : u.f.content = some g) (hpc : d.pc = g.pc) :
    (u.complete (u.stages mn fx)).frontPC = d.predictedNext := by
  have hfsm : (u.complete (u.stages mn fx)).fsm = { u.fsm with forwardFetcher := false } := State.nextFsm_of_none hctrl hclaim
  have hnext : d.pc + 4#32 = u.pc := by rw [hpc, hw.fetched g hg]
  rw [State.frontPC_of_idle (by rw [hfsm]; exact h0), State.complete_f_content hw.fStall, State.complete_pc]
  unfold DRec.predictedNext
  cases hp : d.predictedBranch
  · have hfetch : (u.stages mn fx).fet.fn.pc = u.pc := u.fetchStage_pc
    simp [CycleOut.redirect, redirectTarget, claimBubblesF, hctrl, hclaim, hd, hp, hflag, hnext, hfetch]
  · simp [CycleOut.redirect, redirectTarget, choosePC, hctrl, hclaim, hd, hp]

end Sys2Proof.Machine
end

section
/-! SUPPORT. The record latched into `D` runs as the instruction in `F` does by itself (R346, R440): its operands are those that the
older instructions leave, and its word and prediction do not matter. -/

namespace Sys2Proof.Machine

variable {s t u : State} {d : DRec} {k : Kind} {i : Instr} {g : FRec} {o : Operand}

/-! ### The record that Decode gives -/

/-- Decode of a fetched record gives a Poison record with an event, or the record of the instruction (R324). -/
theorem State.decodeRecord_cases (s : State) (g : FRec) :
    (∃ e, ((g.poison = some e ∧ (s.decodeRecord g).event = none) ∨
        (g.poison = none ∧ ∃ r, decode s.params.mSet g.inst = .error r ∧ e = .decodeError g.pc g.inst r ∧
          (s.decodeRecord g).event = immediateEvent s.params e)) ∧
      (s.decodeRecord g).dn = some (poisonRecord g.pc g.inst e) ∧ (s.decodeRecord g).env = s.env ∧
        (s.decodeRecord g).call = none) ∨
    (g.poison = none ∧ ∃ i, decode s.params.mSet g.inst = .ok i ∧
      (s.decodeRecord g).dn = some (s.decodeInstr g.pc g.inst i).record ∧
      (s.decodeRecord g).env = (s.decodeInstr g.pc g.inst i).env ∧
      (s.decodeRecord g).call = (s.decodeInstr g.pc g.inst i).call ∧ (s.decodeRecord g).event = none) := by
  unfold State.decodeRecord
  split
  · exact .inl ⟨_, .inl ⟨‹_›, rfl⟩, rfl, rfl, rfl⟩
  · split
    · exact .inl ⟨_, .inr ⟨‹_›, _, ‹_›, rfl, rfl⟩, rfl, rfl, rfl⟩
    · exact .inr ⟨‹_›, _, ‹_›, rfl, rfl, rfl, rfl⟩

/-- Decode of a fetched record always gives one, at its address (R324). -/
theorem State.decodeRecord_dn (s : State) (g : FRec) : ∃ d, (s.decodeRecord g).dn = some d := by
  rcases s.decodeRecord_cases g with ⟨e, -, h, -⟩ | ⟨-, i, -, h, -⟩
  · exact ⟨_, h⟩
  · exact ⟨_, h⟩

/-- The record of an instruction when the predictor's answer, asked for a branch only, is `b` (R219, R324). -/
def State.recordOf (s : State) (pc inst : Word) (i : Instr) (b : Bool) : DRec :=
  if i.kind.isBranch then (s.snapshot pc inst i).predicted b else s.snapshot pc inst i

theorem State.decodeInstr_record (pc inst : Word) (i : Instr) :
    (s.decodeInstr pc inst i).record = s.recordOf pc inst i s.env.drawAnswer.1 := by
  unfold State.decodeInstr State.recordOf
  split <;> rfl

variable {pc inst : Word} {b : Bool}

@[simp] theorem State.recordOf_pc : (s.recordOf pc inst i b).pc = pc := by
  unfold State.recordOf
  split <;> rfl

theorem State.decodeRecord_pc (h : (s.decodeRecord g).dn = some d) : d.pc = g.pc := by
  rcases s.decodeRecord_cases g with ⟨e, -, hp, -⟩ | ⟨-, i, -, hi, -⟩
  · obtain rfl := Option.some.inj (h.symm.trans hp)
    rfl
  · obtain rfl := Option.some.inj (h.symm.trans hi)
    rw [State.decodeInstr_record, State.recordOf_pc]

@[simp] theorem State.recordOf_kind : (s.recordOf pc inst i b).kind = .real i.kind := by
  unfold State.recordOf
  split <;> rfl

@[simp] theorem State.recordOf_source : (s.recordOf pc inst i b).source o = o.sourceIn i := by
  unfold State.recordOf
  split <;> cases o <;> rfl

/-- The operands are those of the register file (R33, R324). -/
@[simp] theorem State.recordOf_operand : (s.recordOf pc inst i b).operand o = s.readReg (o.sourceIn i) := by
  unfold State.recordOf
  split <;> cases o <;> rfl

/-- A record latched into `D` is that of the record in `F` after the hazard tiers, which claimed nothing, and Execute had no control
hazard (R334, R337, R371). -/
theorem State.Cycles.latched (h : s.Cycles t) (hstall : s.d.stall = 0#2) (hd : t.d.content = some d) :
    s.executeStage.ctrl = none ∧ ∃ g d0 mn fx, s.restoreOrTick.f.content = some g ∧ (s.decodeRecord g).dn = some d0 ∧
      s.cycleStart.MemoryDone mn fx ∧
      let q := hazardTiers s.params d0 (s.executeStage.en.map ERec.producer) (mn.map MRec.producer)
        (s.m.content.map MRec.producer)
      q.claim = none ∧ d = q.dn ∧ t = s.cycleStart.complete (s.cycleStart.stages mn fx) := by
  obtain ⟨-, -, mn, fx, hm, -, rfl⟩ := h.cases
  rw [State.complete_d_content (by simpa using hstall), Option.ite_none_left_eq_some] at hd
  obtain ⟨hno, hdn⟩ := hd
  obtain ⟨hclaim, hctrl⟩ : (s.cycleStart.stages mn fx).haz.claim = none ∧ (s.cycleStart.stages mn fx).exe.ctrl = none := by
    simpa using hno
  refine ⟨by rw [← s.cycleStart_executeStage]; exact hctrl, ?_⟩
  have hhaz : (s.cycleStart.stages mn fx).haz =
      hazardLogic s.params s.cycleStart.decodeStage.dn s.executeStage.en mn s.m.content := by
    simp [State.stages]
  rw [hhaz] at hclaim hdn
  cases hf : s.restoreOrTick.f.content with
  | none =>
    rw [State.decodeStage_dn_of_none (by simpa using hf)] at hdn
    cases hdn
  | some g =>
    rw [State.cycleStart_decodeStage hf] at hclaim hdn
    cases hd0 : (s.decodeRecord g).dn with
    | none =>
      rw [hd0] at hdn
      cases hdn
    | some d0 =>
      rw [hd0] at hclaim hdn
      exact ⟨g, d0, mn, fx, rfl, hd0, hm, hclaim, (Option.some.inj hdn).symm, rfl⟩

/-! ### Coherence (R440) -/

/-- A register after WriteBack of a record (R34, R328). -/
theorem State.writeBack_readReg (s : State) (m : MRec) (r : RegIdx) :
    (s.writeBack m).readReg r = Producer.writeOver (some m.producer) r (s.readReg r) := by
  unfold State.writeBack Producer.writeOver Producer.sets MRec.producer
  cases m.writeReg
  · rfl
  · by_cases h0 : r = 0#5
    · simp [h0]
    · by_cases hr : r = m.dest
      · simp [State.readReg_afterSet, ← hr, h0]
      · simp [State.readReg_afterSet, hr, Ne.symm hr, h0]

theorem State.writeBackStage_readReg (s : State) (r : RegIdx) :
    s.writeBackStage.readReg r = Producer.writeOver (s.m.content.map MRec.producer) r (s.readReg r) := by
  cases hm : s.m.content with
  | none => rw [State.writeBackStage_of_none hm]; rfl
  | some m => rw [State.writeBackStage_of_some hm, State.writeBack_readReg]; rfl

/-- The Memory stage changes the value of a load-class record only (R201, R241, R327). -/
theorem executeKind_out_kept {p : Params} {m : MRec} {fx : Effects}
    (hload : ((executeKind k p d).record k d).loadClass = false)
    (h : s.memoryAccess ((executeKind k p d).record k d) = .done m fx) : m.out = (executeKind k p d).out := by
  refine State.memoryAccess_done_out h ?_ ?_
  · have hshape := executeKind_shape k p d
    generalize executeKind k p d = x at hload hshape
    cases hshape with
    | load => cases hload
    | _ => rfl
  · by_cases hk : k = .ecall
    · subst hk
      right; right
      simpa [executeKind, exEcall, ExOut.record] using hload
    · exact .inr (.inl hk)

/-- What Execute gives is the record of the rule of the kind in `D` (R325). -/
theorem State.executeStage_en {e : ERec} (h : s.executeStage.en = some e) :
    ∃ d k, s.d.content = some d ∧ d.kind = .real k ∧ e = (executeKind k s.params d).record k d := by
  unfold State.executeStage at h
  split at h
  · cases h
  · rename_i d hd
    unfold executeRecord at h
    split at h
    · cases h
    · rename_i k hk
      dsimp only at h
      split at h
      · cases h
      · exact ⟨d, k, hd, hk, (Option.some.inj h).symm⟩

/-- A register once what is in Execute has run to its end, if no load-class record of it sets the register. -/
theorem State.finishIfAny_readReg {r : RegIdx} (h : u.finishIfAny s.executeStage.en = some t)
    (hload : ∀ p, s.executeStage.en.map ERec.producer = some p → p.loadClass = true → p.sets r = false) :
    t.readReg r = Producer.writeOver (s.executeStage.en.map ERec.producer) r (u.readReg r) := by
  cases hen : s.executeStage.en with
  | none =>
    rw [hen] at h
    obtain rfl := Option.some.inj h
    rfl
  | some e =>
    obtain ⟨d, k, -, -, rfl⟩ := State.executeStage_en hen
    rw [hen] at h hload
    unfold State.finishIfAny State.finish at h
    dsimp only at h
    split at h
    · rename_i m fx hdone
      obtain rfl := Option.some.inj h
      obtain ⟨-, -, hdest, hwrite, -⟩ := State.memoryAccess_keeps hdone
      rw [State.writeBack_readReg, State.readReg_congr (u.applyEffects_x fx) r]
      have hsets : m.producer.sets r = ((executeKind k s.params d).record k d).producer.sets r := by
        simp only [Producer.sets, MRec.producer, hdest, hwrite]
        rfl
      cases hl : ((executeKind k s.params d).record k d).loadClass with
      | false =>
        have hout := executeKind_out_kept hl hdone
        simp only [Producer.writeOver, Option.map_some, hsets]
        simp only [MRec.producer, hout]
        rfl
      | true => simp [Producer.writeOver, hsets, hload _ rfl hl]
    · cases h

/-- A completed cycle leaves every operand in `D` that its record reads coherent (R440). -/
theorem State.Cycles.operand_coherent {v : State} (h : s.Cycles t) (hs : s.inv = true) (hx0 : s.params.x0Transient = false)
    (hv : t.drainOlder = some v) (hd : t.d.content = some d) (hk : d.kind = .real k) (ho : o.readBy k = true) :
    d.operand o = v.readReg (d.source o) := by
  obtain ⟨hw, -⟩ := State.inv_iff.1 hs
  obtain ⟨-, hen⟩ := h.execute
  obtain ⟨-, g, d0, mn, fx, hg, hd0, hm, hclaim, rfl, ht⟩ := h.latched hw.dStall hd
  obtain ⟨a, b, c, hre⟩ : d0.ReOperanded _ := hazardTiers_reOperanded s.params (s.executeStage.en.map ERec.producer)
    (mn.map MRec.producer) (s.m.content.map MRec.producer)
  have hk0 : d0.kind = .real k := by rw [← hk, hre]
  obtain ⟨hop, hload⟩ := hazardTiers_operand hx0 hclaim hk0 ho
  rw [hop, (hazardTiers_reOperanded ..).source]
  have hop0 : d0.operand o = s.readReg (d0.source o) := by
    rcases s.decodeRecord_cases g with ⟨e, -, hp, -⟩ | ⟨-, i, -, hi, -⟩
    · obtain rfl := Option.some.inj (hd0.symm.trans hp)
      cases hk0
    · obtain rfl := Option.some.inj (hd0.symm.trans hi)
      rw [State.decodeInstr_record, State.recordOf_operand, State.recordOf_source]
  have hlatch : t.m.content = mn := by
    rw [ht]
    exact Slot.commit_content _ (by simpa using hw.mStall)
  have hregs : ∀ r, t.readReg r = Producer.writeOver (s.m.content.map MRec.producer) r (s.readReg r) := by
    intro r
    rw [State.readReg_congr (ht ▸ State.complete_x ..) r, State.writeBackStage_readReg]
    simp
  rw [State.drainOlder_eq, hen hw.eStall] at hv
  rw [State.finishIfAny_readReg hv hload, State.writeBackStage_readReg, hlatch, hregs, hop0]

/-! ### The latched record runs as the instruction does by itself -/

/-- Two records with the same operands in the same places are one record of an instruction. -/
theorem State.recordOf_reOperanded (h : (s.recordOf pc inst i b).ReOperanded d)
    (hop : ∀ o : Operand, d.operand o = t.readReg (o.sourceIn i)) : d = t.recordOf pc inst i b := by
  obtain ⟨x, y, z, rfl⟩ := h
  obtain rfl : x = t.readReg i.rs1 := hop .first
  obtain rfl : y = t.readReg i.rs2 := hop .second
  obtain rfl : z = t.readReg i.rs3 := hop .third
  unfold State.recordOf
  split <;> rfl

/-- A branch kind has an outcome on any operands (R210 to R215). -/
theorem exists_branchOutcome (hk : k.isBranch = true) (a b : Word) : ∃ taken, branchOutcome k a b = some taken := by
  cases k with
  | beq | bne | blt | bge | bltu | bgeu => exact ⟨_, rfl⟩
  | _ => cases hk

/-- No rule reads the fetched word (R325). -/
theorem executeKind_inst (p : Params) (d : DRec) (w : Word) : executeKind k p { d with inst := w } = executeKind k p d := by
  cases k <;> rfl

/-- The rule of a kind gives the same event, the same record and the same next address whatever the fetched word and the
prediction: a branch goes on by its outcome (R220, R221). -/
theorem State.executeKind_recordOf (s : State) (p : Params) (pc w w' : Word) (i : Instr) (b b' : Bool) :
    (executeKind i.kind p (s.recordOf pc w i b)).event = (executeKind i.kind p (s.recordOf pc w' i b')).event ∧
    (executeKind i.kind p (s.recordOf pc w i b)).record i.kind (s.recordOf pc w i b) =
      (executeKind i.kind p (s.recordOf pc w' i b')).record i.kind (s.recordOf pc w' i b') ∧
    nextPC (executeKind i.kind p (s.recordOf pc w i b)) (s.recordOf pc w i b) =
      nextPC (executeKind i.kind p (s.recordOf pc w' i b')) (s.recordOf pc w' i b') := by
  unfold State.recordOf
  split
  · rename_i hb
    obtain ⟨taken, ht⟩ := exists_branchOutcome hb (s.readReg i.rs1) (s.readReg i.rs2)
    rw [executeKind_branch (d := (s.snapshot pc w i).predicted b) ht, executeKind_branch (d := (s.snapshot pc w' i).predicted b') ht]
    refine ⟨rfl, rfl, ?_⟩
    cases b <;> cases b' <;> cases taken <;> rfl
  · have hw : s.snapshot pc w i = { s.snapshot pc w' i with inst := w } := rfl
    rw [hw, executeKind_inst]
    exact ⟨rfl, rfl, rfl⟩

/-- What the program sees once the record `d` has run after everything older (R346). -/
def State.runDecoded (s : State) (d : DRec) : Option Arch :=
  (executeRecord s.params d).en.bind fun e =>
    (s.finish e).map fun o => { o.arch with pc := (executeRecord s.params d).ctrl.getD d.predictedNext }

theorem executeRecord_real {p : Params} (hk : d.kind = .real k) (h : (executeKind k p d).event = none) :
    (executeRecord p d).en = some ((executeKind k p d).record k d) ∧ (executeRecord p d).ctrl = (executeKind k p d).ctrl := by
  simp [executeRecord, hk, h]

theorem executeRecord_real_event {p : Params} {w : FatalEvent} (hk : d.kind = .real k) (h : (executeKind k p d).event = some w) :
    (executeRecord p d).en = none := by
  simp [executeRecord, hk, h, ExecuteOut.bubble]

/-- How one instruction run by itself ends when its Memory stage answers `r`. -/
def State.endAlone (s : State) (i : Instr) (r : MemResult) : Host.Outcome State Fault Refusal :=
  match r with
  | .stuck f => .fault f
  | .fatal w printed => .next ((s.emit printed).raise w)
  | .exit => .next ((s.count 0 1).exitRun)
  | .done m fx => .next (s.completeAlone i.kind (s.executedAlone i) (s.decodedAlone i) m fx)

theorem exec_of_event {w : FatalEvent} (h : (s.executedAlone i).event = some w) : exec i s = .next (s.raise w) := by
  rw [exec_eq]
  unfold runAlone
  dsimp only
  change (match (s.executedAlone i).event with | some ev => _ | none => _) = _
  rw [h]

theorem exec_of_no_event (h : (s.executedAlone i).event = none) :
    exec i s = s.endAlone i (s.memoryAccess (s.recordAlone i)) := by
  rw [exec_eq]
  unfold runAlone
  dsimp only
  change (match (s.executedAlone i).event with | some ev => _ | none => _) = _
  rw [h]
  rfl

/-- What the program sees after an instruction run by itself: its effects and its write, and then its next address. -/
theorem State.completeAlone_sameView (s : State) (i : Instr) (m : MRec) (fx : Effects) :
    (s.completeAlone i.kind (s.executedAlone i) (s.decodedAlone i) m fx).SameView ((s.applyEffects fx).writeBack m) := by
  obtain ⟨hchars, hints⟩ := s.decodedAlone_env (i := i)
  obtain ⟨hchars', hints', -, -⟩ := (s.decodedAlone i).env.drawLatencies_keeps fx.accesses
  have hview : (({ s with env := ((s.decodedAlone i).env.drawLatencies fx.accesses).2 }.logPredictor
      (s.decodedAlone i).call).logPredictor ((s.executedAlone i).update (s.decodedAlone i).record)).SameView s :=
    ⟨by simp, by simp, by simp, by simp [hchars', hchars], by simp [hints', hints], by simp⟩
  exact { (hview.applyEffects fx).writeBack m with }

theorem nextPC_eq (x : ExOut) (d : DRec) : nextPC x d = x.ctrl.getD d.predictedNext := by
  unfold nextPC
  cases x.ctrl <;> rfl

/-- The record of an instruction runs as `exec` says. -/
theorem State.SameView.runDecoded_eq (h : s.SameView u) (hrun : u.status = .running) (inst : Word) (i : Instr) (b : Bool) :
    match exec i u with
    | .next v => s.runDecoded (s.recordOf u.pc inst i b) = if v.status = .running then some v.arch else none
    | .fault _ => s.runDecoded (s.recordOf u.pc inst i b) = none
    | .refused _ => False := by
  have hrec : s.recordOf u.pc inst i b = u.recordOf u.pc inst i b := by
    unfold State.recordOf
    rw [State.snapshot_congr (State.readReg_congr h.x)]
  have hdec : (u.decodedAlone i).record = u.recordOf u.pc (encode i) i u.env.drawAnswer.1 := u.decodeInstr_record ..
  obtain ⟨hevent, hrecord, hnext⟩ := u.executeKind_recordOf u.params u.pc inst (encode i) i b u.env.drawAnswer.1
  rw [← hdec] at hevent hrecord hnext
  change _ = u.recordAlone i at hrecord
  have hk : (u.recordOf u.pc inst i b).kind = .real i.kind := State.recordOf_kind
  rw [hrec]
  unfold State.runDecoded
  rw [h.params]
  cases he : (u.executedAlone i).event with
  | some w => simp [exec_of_event he, executeRecord_real_event hk (hevent.trans he)]
  | none =>
    obtain ⟨hen, hctrl⟩ := executeRecord_real hk (hevent.trans he)
    rw [exec_of_no_event he, hen, hctrl, ← nextPC_eq, hnext, Option.bind_some, hrecord]
    unfold State.finish
    rw [h.memoryAccess]
    cases u.memoryAccess (u.recordAlone i) with
    | stuck f => rfl
    | fatal w printed => rfl
    | exit => exact (if_neg (State.exitRun_not_running _)).symm
    | done m fx =>
      have hview := ((h.applyEffects fx).writeBack m).trans (u.completeAlone_sameView i m fx).symm
      have hstatus : (u.completeAlone i.kind (u.executedAlone i) (u.decodedAlone i) m fx).status = .running := by
        rw [State.completeAlone_status, hrun]
      exact (congrArg some (hview.arch _)).trans (if_pos hstatus).symm

/-- Draining with a record in `D` runs it after everything older. -/
theorem State.drain_of_decoded (ho : t.drainOlder = some s) (hp : s.params = t.params) (hd : t.d.content = some d)
    (hfront : t.frontPC = d.predictedNext) : t.drain = s.runDecoded d := by
  unfold State.drain State.runDecoded
  rw [ho, hd, hp, Option.bind_some, hfront]
  dsimp only
  cases (executeRecord t.params d).en <;> rfl

/-- Draining with a bubble in `D`. -/
theorem State.drain_of_bubble (ho : t.drainOlder = some s) (hd : t.d.content = none) :
    t.drain = some { s.arch with pc := t.frontPC } := by
  unfold State.drain
  rw [ho, hd]
  rfl

/-- The three ways in which `D` and the front of the pipeline come out of steps 4 to 8: a control hazard, nothing decoded for good,
and a record latched into `D`. -/
theorem State.complete_front {mn : Option MRec} {fx : Effects} (hw : u.WellMade) (ht : u.Ticked)
    (hflag : u.fsm.countdown = 0#2 → u.fsm.forwardFetcher = false) :
    ((u.complete (u.stages mn fx)).d.content = none ∧
      (u.complete (u.stages mn fx)).frontPC = u.executeStage.ctrl.getD u.frontPC) ∨
    (u.executeStage.ctrl = none ∧ ∃ g d, u.f.content = some g ∧ g.pc = u.frontPC ∧
      (u.complete (u.stages mn fx)).d.content = some d ∧ (u.complete (u.stages mn fx)).frontPC = d.predictedNext) := by
  rw [State.complete_d_content hw.dStall]
  cases hctrl : (u.stages mn fx).exe.ctrl with
  | some target =>
    have hctrl' : u.executeStage.ctrl = some target := hctrl
    exact .inl ⟨by simp, by rw [hctrl', State.complete_frontPC_of_hazard hw.fStall hctrl]; rfl⟩
  | none =>
    have hctrl' : u.executeStage.ctrl = none := hctrl
    rw [hctrl']
    cases hf : u.f.content with
    | none =>
      exact .inl ⟨by simp [State.stages_haz_of_empty hf], State.complete_frontPC_of_empty hw hflag hctrl hf⟩
    | some g =>
      have h0 : u.fsm.countdown = 0#2 := by_contra fun h0 => by simp [ht.empty h0] at hf
      have hgpc : g.pc = u.frontPC := by simp [State.frontPC_of_idle h0, hf]
      cases hclaim : (u.stages mn fx).haz.claim with
      | some q =>
        exact .inl ⟨by simp, (State.complete_frontPC_of_claim hctrl hclaim (hazardLogic_claim_length hclaim) hf).trans hgpc⟩
      | none =>
        have hdec : u.decodeStage = u.decodeRecord g := by simp [State.decodeStage, hf]
        obtain ⟨d0, hd0⟩ := u.decodeRecord_dn g
        obtain ⟨d, hd, hre⟩ := hazardLogic_dn_some u.params d0 u.executeStage.en mn u.m.content
        have hhaz : (u.stages mn fx).haz.dn = some d := by rw [← hd, ← hd0, ← hdec]; rfl
        exact .inr ⟨rfl, g, d, rfl, hgpc, by simp [hhaz], State.complete_frontPC_of_decoded hw h0 (hflag h0) hctrl hclaim hhaz hf
          (hre.pc.trans (State.decodeRecord_pc hd0))⟩

/-- After a completed cycle nothing stands in `D` and the front of the pipeline is where it was or where a control hazard sent it,
or the record in `F` was latched into `D` and the front is where the decoder sends fetch. -/
theorem State.Cycles.front (h : s.Cycles t) (hs : s.inv = true) :
    (t.d.content = none ∧ t.frontPC = s.executeStage.ctrl.getD s.frontPC) ∨
    (s.executeStage.ctrl = none ∧ ∃ g d, s.cycleStart.f.content = some g ∧ g.pc = s.frontPC ∧ t.d.content = some d ∧
      t.frontPC = d.predictedNext) := by
  obtain ⟨hrun, -, mn, fx, -, -, rfl⟩ := h.cases
  obtain ⟨hw, ht⟩ := State.cycleStart_wellMade hs hrun
  rw [← State.cycleStart_frontPC (State.inv_iff.1 hs).1, ← s.cycleStart_executeStage]
  exact State.complete_front hw ht (State.cycleStart_flag hs hrun)

/-- The record of the instruction in `F`, once latched, is its record with the operands that the older instructions leave (R440). -/
theorem State.Cycles.latched_record {v : State} (h : s.Cycles t) (hs : s.inv = true) (hx0 : s.params.x0Transient = false)
    (hv : t.drainOlder = some v) (hd : t.d.content = some d) (hg : s.cycleStart.f.content = some g) (hp : g.poison = none)
    (hi : decode s.params.mSet g.inst = .ok i) : ∃ b, d = v.recordOf g.pc g.inst i b := by
  obtain ⟨hw, -⟩ := State.inv_iff.1 hs
  obtain ⟨-, g', d0, mn, fx, hg', hd0, -, -, hdn, -⟩ := h.latched hw.dStall hd
  obtain rfl : g = g' := by simpa [hg'] using hg.symm
  obtain rfl : d0 = s.recordOf g.pc g.inst i s.env.drawAnswer.1 := by
    rw [← State.decodeInstr_record]
    simpa [State.decodeRecord, hp, hi] using hd0.symm
  have hre := hazardTiers_reOperanded (d := s.recordOf g.pc g.inst i s.env.drawAnswer.1) s.params
    (s.executeStage.en.map ERec.producer) (mn.map MRec.producer) (s.m.content.map MRec.producer)
  rw [← hdn] at hre
  refine ⟨_, State.recordOf_reOperanded hre fun o => ?_⟩
  have hsource : d.source o = o.sourceIn i := by rw [hre.source, State.recordOf_source]
  cases ho : o.readBy i.kind with
  | true =>
    rw [h.operand_coherent hs hx0 hv hd (hre.kind.trans State.recordOf_kind) ho, hsource]
  | false =>
    rw [hdn, hazardTiers_operand_of_not_read _ _ _ _ State.recordOf_kind ho, State.recordOf_operand,
      Operand.sourceIn_of_not_read ho]
    rfl

/-- A Poison record in `D` ends the run, so that nothing drains. -/
theorem State.drain_of_poison {e : FatalEvent} (hd : t.d.content = some d) (hk : d.kind = .poison e) : t.drain = none :=
  State.drain_of_event (w := e) (by simp [State.executeStage, hd, executeRecord, hk])

theorem State.Cycles.latched_poison {e : FatalEvent} (h : s.Cycles t) (hs : s.inv = true) (hd : t.d.content = some d)
    (hg : s.cycleStart.f.content = some g) (hp : (s.decodeRecord g).dn = some (poisonRecord g.pc g.inst e)) :
    d.kind = .poison e := by
  obtain ⟨hw, -⟩ := State.inv_iff.1 hs
  obtain ⟨-, g', d0, mn, fx, hg', hd0, -, -, rfl, -⟩ := h.latched hw.dStall hd
  obtain rfl : g = g' := by simpa [hg'] using hg.symm
  obtain rfl := Option.some.inj (hp.symm.trans hd0)
  exact (hazardTiers_reOperanded ..).kind

end Sys2Proof.Machine

open Sys2Proof Sys2Proof.Machine

/-- Settles O60: what is past Decode drains as before, and the front of the pipeline stays unless the record in `F` is latched into `D`,
which then holds the operands that the older instructions leave and so runs as `exec` says. -/
theorem pipelineRefinesSequential : Obligations.PipelineRefinesSequential := by
  intro s t a hs hx0 _ h ha
  obtain ⟨o, ho, hparams, ha', hpc⟩ := h.drainOlder_of_drain hs ha
  obtain ⟨hd, hfront⟩ | ⟨hctrl, g, d, hg, hgpc, hd, hfront⟩ := h.front hs
  · left
    rw [State.drain_of_bubble ho hd, hfront, ← hpc, ha']
  · rw [hctrl] at hpc
    refine .inr ⟨g, hg, hgpc.trans hpc.symm, ?_⟩
    rcases s.decodeRecord_cases g with ⟨e, he, hp, -⟩ | ⟨hp, i, hi, -⟩
    · have hdrain := State.drain_of_poison hd (h.latched_poison hs hd hg hp)
      obtain ⟨hp, -⟩ | ⟨hp, r, hr, -⟩ := he
      · exact .inl ⟨by simp [hp], hdrain⟩
      · exact .inr (.inl ⟨hp, ⟨r, hr⟩, hdrain⟩)
    · refine .inr (.inr ⟨hp, i, hi, fun u hu hup hrun => ?_⟩)
      obtain ⟨b, rfl⟩ := h.latched_record hs hx0 ho hd hg hp hi
      have hview : o.SameView u := .of_arch (ha'.trans hu.symm) (by rw [hparams, step_params h.1, hup])
      have hupc : u.pc = g.pc := by rw [hgpc, ← State.arch_pc, hu, hpc]; rfl
      rw [State.drain_of_decoded ho hparams hd hfront, ← hupc]
      exact hview.runDecoded_eq hrun g.inst i b

end

section
/-! SUPPORT. How a running step goes by the answer of its Memory stage, and how a cycle ends the run (R321, R332, R333): by the stack
guard, by a fault or the exit call in Memory, or by an event of a younger stage. -/

namespace Sys2Proof.Machine

variable {s t u : State} {e : ERec} {v : FatalEvent} {fx : Effects}

/-! ### A running step by its guard and its Memory stage -/

/-- The stack guard of step 2 ends the run (R321). -/
theorem step_of_guard (hs : s.status = .running) (hg : s.cycleStart.guardFails = true) :
    step s = .next (s.cycleStart.raise (.stackOverflow s.cycleStart.sp)) := by
  unfold step State.cycleIfRunning
  rw [hs]
  exact if_pos hg

/-- The guard reads the stack pointer, which steps 1 and 2 leave. -/
theorem State.cycleStart_guardFails (s : State) : s.cycleStart.guardFails = s.guardFails := by
  unfold State.guardFails State.sp
  rw [State.cycleStart_readReg, State.cycleStart_params]

section
variable (hs : s.status = .running) (hg : s.cycleStart.guardFails = false)
include hs hg

/-- A fault at Memory ends the run (R332). -/
theorem step_of_memory_fatal {printed : List OutEvent} (he : s.e.content = some e) (h : s.memoryAccess e = .fatal v printed) :
    step s = .next (s.cycleStart.mergeMemoryFault v printed) := by
  rw [step_of_running hs hg]
  simp [State.afterGuards, State.memoryStage, he, h]

/-- The exit call ends the run (R333). -/
theorem step_of_memory_exit (he : s.e.content = some e) (h : s.memoryAccess e = .exit) :
    step s = .next s.cycleStart.mergeExit := by
  rw [step_of_running hs hg]
  simp [State.afterGuards, State.memoryStage, he, h]

/-- A call that does not complete keeps the cycle from completing (R243, R250). -/
theorem step_of_memory_stuck {f : Fault} (he : s.e.content = some e) (h : s.memoryAccess e = .stuck f) : step s = .fault f := by
  rw [step_of_running hs hg]
  simp [State.afterGuards, State.memoryStage, he, h]

/-- Without an event at Memory the merge is made (R331). -/
theorem step_of_memoryDone {mn : Option MRec} (hm : s.cycleStart.MemoryDone mn fx) :
    step s = .next (s.cycleStart.merge (s.cycleStart.stages mn fx)) := by
  rw [step_of_running hs hg]
  unfold State.afterGuards State.memoryStage
  rcases hm with ⟨he, rfl, rfl⟩ | ⟨e, m, he, ha, rfl⟩
  · rw [he]
    rfl
  · rw [he, Option.map_some, ha]

end

/-! ### The faults of the Memory stage -/

theorem State.memoryAccess_load_fault (hr : e.readMem = true) (hok : accessOk s.params e.out e.memLen.toNat = false) :
    s.memoryAccess e = .fatal (.memoryFault e.out e.memLen.toNat .load) [] := by
  simp [State.memoryAccess, State.loadAccess, State.memRead, hr, hok]

theorem State.memoryAccess_store_fault (hr : e.readMem = false) (hw : e.writeMem = true)
    (hok : accessOk s.params e.out e.memLen.toNat = false) :
    s.memoryAccess e = .fatal (.memoryFault e.out e.memLen.toNat .store) [] := by
  simp [State.memoryAccess, State.storeAccess, hr, hw, hok]

/-! ### The events of the younger stages -/

/-- The event of Execute is that of the record in `D` (R325). -/
theorem State.executeStage_event :
    s.executeStage.event = some v ↔ ∃ d, s.d.content = some d ∧ (executeRecord s.params d).event = some v := by
  unfold State.executeStage
  cases s.d.content <;> simp [ExecuteOut.bubble]

theorem immediateEvent_eq_some {p : Params} {w : FatalEvent} :
    immediateEvent p w = some v ↔ p.specFault = .immediate ∧ v = w := by
  unfold immediateEvent
  split_ifs with h <;> simp [h, eq_comm]

/-- Decode has an event under `SPEC_FAULT = Immediate` only, that of a word that is no instruction (R324). -/
theorem State.decodeStage_event :
    s.decodeStage.event = some v ↔ s.params.specFault = .immediate ∧ ∃ f r, s.f.content = some f ∧ f.poison = none ∧
      decode s.params.mSet f.inst = .error r ∧ v = .decodeError f.pc f.inst r := by
  unfold State.decodeStage
  cases hf : s.f.content with
  | none => simp
  | some f =>
    rcases s.decodeRecord_cases f with ⟨w, ⟨hp, he⟩ | ⟨hp, r, hr, rfl, he⟩, -⟩ | ⟨hp, i, hi, -, -, -, he⟩
    · simp [he, hp]
    · simp [he, hp, hr, immediateEvent_eq_some]
    · simp [he, hp, hi]

/-- Fetch has an event under `SPEC_FAULT = Immediate` only, that of a fetch that is not performed (R323). -/
theorem State.fetchStage_event :
    s.fetchStage.event = some v ↔ s.params.specFault = .immediate ∧ accessOk s.params s.pc 4 = false ∧
      v = .memoryFault s.pc 4 .fetch := by
  unfold State.fetchStage State.memRead
  cases accessOk s.params s.pc 4 <;> simp [immediateEvent_eq_some]

/-- The event of the merge is that of the oldest younger stage that has one (R332). -/
theorem CycleOut.youngerEvent_eq_some {c : CycleOut} :
    c.youngerEvent = some v ↔ c.exe.event = some v ∨ (c.exe.event = none ∧ c.dec.event = some v) ∨
      (c.exe.event = none ∧ c.dec.event = none ∧ c.fet.event = some v) := by
  unfold CycleOut.youngerEvent
  cases c.exe.event <;> cases c.dec.event <;> simp

/-! ### The effects of the Memory stage on memory, console and environment -/

/-- What the Memory stage did with the record in `E`. -/
theorem State.MemoryDone.of_record {mn : Option MRec} (hm : s.cycleStart.MemoryDone mn fx) (he : s.e.content = some e) :
    ∃ m, s.memoryAccess e = .done m fx ∧ mn = some m := by
  rcases hm with ⟨he', -⟩ | ⟨e', m, he', hdone, hmn⟩
  · simp [he] at he'
  · obtain rfl : e = e' := by simpa [he] using he'
    exact ⟨m, by rw [← hdone, s.cycleStart_memoryAccess], hmn⟩

/-- It does nothing for a bubble in `E` (R45). -/
theorem State.MemoryDone.of_bubble {mn : Option MRec} (hm : s.cycleStart.MemoryDone mn fx) (he : s.e.content = none) :
    mn = none ∧ fx = Effects.nothing :=
  hm.unique (.inl ⟨by simpa using he, rfl, rfl⟩)

/-- The effects of the Memory stage are made on memory, console and environment alone (R331). -/
theorem State.applyEffects_congr (hm : s.mem = t.mem) (hc : s.console = t.console) (he : s.env = t.env) (fx : Effects) :
    (s.applyEffects fx).mem = (t.applyEffects fx).mem ∧ (s.applyEffects fx).console = (t.applyEffects fx).console ∧
      (s.applyEffects fx).env = (t.applyEffects fx).env := by
  obtain ⟨st, out, c, n⟩ := fx
  rcases st with _ | st <;> rcases c with _ | (c | n) <;>
    simp [State.applyEffects, State.performStore, State.consume, State.emit, hm, hc, he]

/-- The console after the effects of the Memory stage (R251). -/
theorem State.applyEffects_console (s : State) (fx : Effects) :
    (s.applyEffects fx).console =
      { output := s.console.output ++ fx.output, consumed := s.console.consumed ++ fx.consumed.toList } := by
  unfold State.applyEffects
  rcases fx.consumed with _ | (c | n) <;> simp [State.consume]

/-- Only a system call touches the console (R251, R327). -/
theorem State.memoryAccess_done_quiet {m : MRec} (h : s.memoryAccess e = .done m fx)
    (hq : e.readMem = true ∨ e.writeMem = true ∨ e.kind ≠ .ecall) : fx.output = [] ∧ fx.consumed = none := by
  rcases State.memoryAccess_done h with ⟨-, -, -, rfl⟩ | ⟨-, -, -, -, rfl⟩ | ⟨hr, hw, hk, -⟩ | ⟨-, -, -, -, rfl⟩
  · exact ⟨rfl, rfl⟩
  · exact ⟨rfl, rfl⟩
  · simp [hr, hw, hk] at hq
  · exact ⟨rfl, rfl⟩

/-- A record that is no system call leaves the console. -/
theorem State.MemoryDone.console_eq {mn : Option MRec} (hm : s.cycleStart.MemoryDone mn fx) (he : s.e.content = some e)
    (hq : e.readMem = true ∨ e.writeMem = true ∨ e.kind ≠ .ecall) : (s.applyEffects fx).console = s.console := by
  obtain ⟨m, hdone, -⟩ := hm.of_record he
  obtain ⟨hout, hin⟩ := State.memoryAccess_done_quiet hdone hq
  simp [State.applyEffects_console, hout, hin]

/-- A record that is no store leaves memory. -/
theorem State.MemoryDone.mem_eq {mn : Option MRec} (hm : s.cycleStart.MemoryDone mn fx) (he : s.e.content = some e)
    (hns : ¬(e.readMem = false ∧ e.writeMem = true)) : (s.applyEffects fx).mem = s.mem := by
  obtain ⟨m, hdone, -⟩ := hm.of_record he
  rw [State.applyEffects_mem, State.memoryAccess_done_store_eq hdone, if_neg hns, State.performStore_none]

end Sys2Proof.Machine

open Sys2Proof Sys2Proof.Machine

/-- Settles O31. -/
theorem stackGuardEndsRun : Obligations.StackGuardEndsRun := by
  intro s hs hsp
  have hg : s.cycleStart.guardFails = true := by
    rw [State.cycleStart_guardFails]
    exact decide_eq_true hsp
  refine ⟨_, step_of_guard hs hg, ?_, fun r => ?_, by simp, by simp, by simp, by simp⟩
  · simp [State.sp]
  · rw [State.readReg_congr (State.raise_x ..), State.cycleStart_readReg]

/-- Settles O35: a completed cycle leaves the register file of WriteBack's write. -/
theorem writeBackRetires : Obligations.WriteBackRetires := by
  intro s t h
  obtain ⟨-, -, mn, fx, -, -, rfl⟩ := h.cases
  have hregs : ∀ r, (s.cycleStart.complete (s.cycleStart.stages mn fx)).readReg r =
      Producer.writeOver (s.m.content.map MRec.producer) r (s.readReg r) := fun r => by
    rw [State.readReg_congr (State.complete_x ..), State.writeBackStage_readReg, State.cycleStart_readReg, State.cycleStart_m]
  refine ⟨fun hm => ⟨by simp [Counters.cycle, State.retires, hm], fun r => by rw [hregs, hm]; rfl⟩, fun m hm =>
    ⟨by simp [Counters.cycle, State.retires, hm], fun r => ?_⟩⟩
  rw [hregs, hm]
  refine if_congr ?_ rfl rfl
  simp only [Producer.sets, MRec.producer, Bool.and_eq_true, beq_iff_eq, bne_iff_ne]
  tauto

/-- Settles O37: each fault is one answer of the Memory stage. -/
theorem memoryEventEndsRun : Obligations.MemoryEventEndsRun := by
  intro s e v printed hs hg he hcase
  have hfatal : s.memoryAccess e = .fatal v printed := by
    rcases hcase with ⟨hr, hok, rfl, rfl⟩ | ⟨hr, hw, hok, rfl, rfl⟩ | ⟨hr, hw, hk, hop, rfl, rfl⟩ |
      ⟨hr, hw, hk, hop, n, hstr, hok, rfl, rfl⟩
    · exact State.memoryAccess_load_fault hr hok
    · exact State.memoryAccess_store_fault hr hw hok
    · rw [State.memoryAccess_ecall hr hw hk, State.systemCall_unknown hop]
    · rw [State.memoryAccess_ecall hr hw hk, State.systemCall_printString hop, State.callPrintString,
        State.printString_faulted hstr hok]
  refine ⟨_, step_of_memory_fatal hs hg he hfatal, ?_⟩
  unfold State.mergeMemoryFault
  exact ⟨rfl, by simp, by simp, by simp, by simp, by simp, by simp, by simp, fun r => State.readReg_congr rfl r,
    by simp [State.retires]⟩

/-- Settles O40: the guard of the end reads the registers after WriteBack's write. -/
theorem exitEndsRun : Obligations.ExitEndsRun := by
  intro s e hs hg he hr hw hk hop
  have hexit : s.memoryAccess e = .exit := by rw [State.memoryAccess_ecall hr hw hk, State.systemCall_exit hop]
  refine ⟨_, step_of_memory_exit hs hg he hexit, ?_⟩
  unfold State.mergeExit
  refine ⟨by simp, by simp, by simp, by simp, by simp, by simp, by simp, by simp, fun r => ?_, ?_, fun h => ?_,
    by simp [State.retires, Nat.add_assoc]⟩
  · rw [State.exitRun_readReg]
    exact State.readReg_congr rfl r
  · rw [State.exitRun_readReg, State.exitRun_eq]
    simp [Params.stackFloor]
  · simp [State.exitStatus, h]

/-- Settles O38: the merge takes the event of the oldest younger stage, and only if there is one does the cycle not complete. -/
theorem executeEventEndsRun : Obligations.ExecuteEventEndsRun := by
  intro s mn fx hs hg hm execute undecodable unfetched immediate
  have hexe : ∀ v, s.cycleStart.executeStage.event = some v ↔ execute v := fun v => by
    rw [s.cycleStart_executeStage]
    exact State.executeStage_event
  have hdec : ∀ v, s.cycleStart.decodeStage.event = some v ↔ immediate ∧ undecodable v := fun v => by
    rw [State.decodeStage_event]
    simp [immediate, undecodable]
  have hfet : ∀ v, s.cycleStart.fetchStage.event = some v ↔ immediate ∧ unfetched v := fun v => by
    rw [State.fetchStage_event]
    simp [immediate, unfetched]
  have noevent : ∀ {o : Option FatalEvent}, (∀ v, o ≠ some v) → o = none := Option.eq_none_iff_forall_ne_some.2
  refine ⟨fun v hv => ?_, fun hnoexe hnoimm => ?_⟩
  · have hevent : (s.cycleStart.stages mn fx).youngerEvent = some v := by
      refine CycleOut.youngerEvent_eq_some.2 ?_
      rcases hv with hv | ⟨himm, hnoexe, hv⟩ | ⟨himm, hnoexe, hnodec, hv⟩
      · exact .inl ((hexe v).2 hv)
      · exact .inr (.inl ⟨noevent fun u h => hnoexe u ((hexe u).1 h), (hdec v).2 ⟨himm, hv⟩⟩)
      · exact .inr (.inr ⟨noevent fun u h => hnoexe u ((hexe u).1 h), noevent fun u h => hnodec u ((hdec u).1 h).2,
          (hfet v).2 ⟨himm, hv⟩⟩)
    obtain ⟨hmem, hconsole, henv⟩ := State.applyEffects_congr (s := s.cycleStart.writeBackStage) (t := s) (by simp) (by simp)
      (by simp) fx
    refine ⟨_, step_of_memoryDone hs hg hm, ?_⟩
    rw [State.merge, hevent]
    refine ⟨rfl, by simp, by simp, by simp, by simp, by simp, fun r => ?_, hmem, hconsole, henv, fun e he hr hw => ?_,
      fun e he hq => ?_, fun e he hr hw hk => ?_, fun he => ?_, by simp [State.retires]⟩
    · exact State.readReg_congr (State.applyEffects_x ..) r
    · obtain ⟨m, hdone, -⟩ := hm.of_record he
      refine ⟨hmem.trans ?_, hconsole.trans (hm.console_eq he (.inr (.inl hw)))⟩
      rw [State.applyEffects_mem, State.memoryAccess_done_store_eq hdone, if_pos ⟨hr, hw⟩, State.performStore_mem_some]
    · refine ⟨hmem.trans (hm.mem_eq he ?_), hconsole.trans (hm.console_eq he (hq.imp_right fun h => .inr h.2))⟩
      rintro ⟨hr, hw⟩
      simp [hr, hw] at hq
    · have hcon := hconsole.trans (s.applyEffects_console fx)
      exact ⟨hmem.trans (hm.mem_eq he (by simp [hw])), congrArg Console.output hcon, congrArg Console.consumed hcon⟩
    · obtain ⟨-, rfl⟩ := hm.of_bubble he
      exact ⟨hmem.trans (by rw [State.applyEffects_nothing]), hconsole.trans (by rw [State.applyEffects_nothing])⟩
  · refine ⟨_, .intro hs hg hm (CycleOut.youngerEvent_eq_none.2 ⟨?_, ?_, ?_⟩)⟩
    · exact noevent fun v h => hnoexe v ((hexe v).1 h)
    · exact noevent fun v h => (hnoimm ((hdec v).1 h).1).1 v ((hdec v).1 h).2
    · exact noevent fun v h => (hnoimm ((hfet v).1 h).1).2 v ((hfet v).1 h).2

end

section
/-! SUPPORT. What Execute gives in a completed cycle (R325, R326): its events, the record it latches by kind, its control hazard, and
the counters and the predictor calls that it makes. -/

namespace Sys2Proof.Machine

variable {s t : State} {d : DRec} {k : Kind} {p : Params} {v : FatalEvent}

/-! ### Events (R280, R325) -/

/-- A division raises on a corner under `DIV_CORNER = Fault` only. -/
theorem divideOut_event {corner : Bool} {riscV value : Word} :
    (divideOut p k d corner riscV value).event = some v ↔
      p.divCorner = .fault ∧ corner = true ∧ v = .divideFault k d.op1 d.op2 := by
  unfold divideOut
  cases corner <;> cases p.divCorner <;> simp [ExOut.alu, ExOut.raise, ExOut.empty, eq_comm]

/-- Only a division's rule raises. -/
theorem executeKind_event :
    (executeKind k p d).event = some v ↔ p.divCorner = .fault ∧ v = .divideFault k d.op1 d.op2 ∧
      (((k = .div ∨ k = .rem) ∧ (d.op2 = 0#32 ∨ (d.op1 = 0x80000000#32 ∧ d.op2 = 0xFFFFFFFF#32))) ∨
        ((k = .divu ∨ k = .remu) ∧ d.op2 = 0#32)) := by
  cases k with
  | div | rem =>
    refine divideOut_event.trans ?_
    rw [signedCorner_iff]
    simp [and_comm]
  | divu | remu =>
    refine divideOut_event.trans ?_
    rw [unsignedCorner_iff]
    simp [and_comm]
  | _ => exact ⟨nofun, by simp⟩

/-! ### The record by kind -/

/-- A division that does not raise gives an ALU result. -/
theorem divideOut_of_no_event {corner : Bool} {riscV value : Word}
    (h : (divideOut p k d corner riscV value).event = none) : ∃ w, divideOut p k d corner riscV value = ExOut.alu w := by
  unfold divideOut at h ⊢
  cases corner <;> cases hp : p.divCorner <;> simp_all [ExOut.raise]

/-- A kind that is no branch, jump, load, store or ECALL gives an ALU result when it does not raise (R150). -/
theorem executeKind_alu (h : (executeKind k p d).event = none)
    (hk : (k.isBranch || k.isJump || k.isLoad || k.isStore || k == .ecall) = false) : ∃ w, executeKind k p d = ExOut.alu w := by
  cases k with
  | beq | bne | blt | bge | bltu | bgeu | jal | jalr | lb | lh | lw | lbu | lhu | sb | sh | sw | ecall => cases hk
  | div | rem | divu | remu => exact divideOut_of_no_event h
  | _ => exact ⟨_, rfl⟩

/-! ### Control hazards (R216, R217, R220, R337) -/

/-- A branch whose outcome is not its prediction goes to its other target (R220). -/
theorem ExOut.branch_ctrl {taken : Bool} (h : d.predictedBranch ≠ taken) : (ExOut.branch d taken).ctrl = some d.anotherPC :=
  if_neg (Ne.symm h)

/-- A completed cycle in which Execute has a control hazard goes on at its target, with `F` and `D` bubbles and the FSM idle. -/
theorem State.Cycles.of_hazard {target : Word} (h : s.Cycles t) (hctrl : s.executeStage.ctrl = some target) :
    t.pc = target ∧ t.f.content = none ∧ t.d.content = none ∧ t.fsm.countdown = 0#2 ∧ t.fsm.forwardFetcher = false ∧
      t.counters.controlHazardCount = s.counters.controlHazardCount + 1 := by
  obtain ⟨-, -, mn, fx, -, -, rfl⟩ := h.cases
  have hctrl' : (s.cycleStart.stages mn fx).exe.ctrl = some target := by
    rw [← hctrl, ← s.cycleStart_executeStage]
    rfl
  obtain ⟨hcount, hflag⟩ := State.nextFsm_of_hazard (u := s.cycleStart) hctrl'
  refine ⟨?_, ?_, ?_, hcount, hflag, ?_⟩
  · rw [State.complete_pc, hctrl']
    rfl
  · simp [State.nextF, hctrl']
  · simp [State.nextD, hctrl']
  · simp [Counters.cycle, hctrl']

/-! ### The outcome of a branch (R220, R342) -/

/-- The rule of a kind resolves a branch by its condition, and has no outcome for another kind. -/
theorem executeKind_taken (k : Kind) (p : Params) (d : DRec) : (executeKind k p d).taken = branchOutcome k d.op1 d.op2 := by
  cases hb : k.isBranch with
  | true =>
    obtain ⟨taken, ht⟩ := exists_branchOutcome hb d.op1 d.op2
    rw [executeKind_branch ht, ht]
    rfl
  | false =>
    rw [(executeKind_shape k p d).taken_eq_none hb]
    cases k with
    | beq | bne | blt | bge | bltu | bgeu => cases hb
    | _ => rfl

/-- Without an event at Execute its penalty is that of the kind in `D` (R340), its call tells the predictor the outcome of the branch in
`D` (R68), and its counts compare it with the prediction (R342). -/
theorem State.executeStage_of_no_event (h : s.executeStage.event = none) :
    s.executeStage.penalty = (if s.d.content.any (fun d => match d.kind with
        | .real k => k.isMulPenalty
        | .poison _ => false) then 3 else 0) ∧
    s.executeStage.call = s.resolved.map (fun r => .update r.1.pc r.2) ∧
    s.executeStage.hits = (if s.resolved.any (fun r => r.2 == r.1.predictedBranch) then 1 else 0) ∧
    s.executeStage.misses = (if s.resolved.any (fun r => r.2 != r.1.predictedBranch) then 1 else 0) := by
  unfold State.resolved
  cases hd : s.d.content with
  | none =>
    rw [State.executeStage_of_none hd]
    exact ⟨rfl, rfl, rfl, rfl⟩
  | some d =>
    rw [State.executeStage_of_some hd] at h ⊢
    obtain ⟨k, hk, -, he⟩ := executeRecord_of_no_event h
    simp only [he, hk, Option.bind_some, Option.any_some, ExOut.update, ExOut.hits, ExOut.misses, executeKind_taken]
    cases branchOutcome k d.op1 d.op2 with
    | none => exact ⟨rfl, rfl, rfl, rfl⟩
    | some taken =>
      simp only [Option.map_some, Option.any_some, Option.some.injEq]
      exact ⟨rfl, trivial, if_congr beq_iff_eq.symm rfl rfl, if_congr (Bool.eq_not.trans bne_iff_ne.symm) rfl rfl⟩

/-- In a completed cycle Execute gives what the rule of the kind in `D` gives, which raises nothing (R325). -/
theorem State.Cycles.executed (h : s.Cycles t) (hd : s.d.content = some d) (hk : d.kind = .real k) :
    (executeKind k s.params d).event = none ∧ s.executeStage.en = some ((executeKind k s.params d).record k d) ∧
      s.executeStage.ctrl = (executeKind k s.params d).ctrl := by
  obtain ⟨hevent, -⟩ := h.execute
  rw [State.executeStage_of_some hd] at hevent ⊢
  obtain ⟨k', hk', he, hex⟩ := executeRecord_of_no_event hevent
  obtain rfl : k = k' := DKind.real.inj (hk.symm.trans hk')
  rw [hex]
  exact ⟨he, rfl, rfl⟩

end Sys2Proof.Machine

open Sys2Proof Sys2Proof.Machine

/-- Settles O39: only the rules of the divisions raise, on their corners. -/
theorem executeEventsAre : Obligations.ExecuteEventsAre := by
  intro p d v
  unfold executeRecord
  cases hk : d.kind with
  | poison e => simp
  | real k =>
    simp only [reduceCtorEq, false_or, DKind.real.injEq, exists_eq_left', ← executeKind_event]
    cases (executeKind k p d).event <;> simp

/-- Settles O34: the record's fields, by the class of the kind. -/
theorem executeLatchesRecord : Obligations.ExecuteLatchesRecord := by
  intro s t h hstall
  rw [h.execute.2 hstall]
  refine ⟨fun hd => by rw [State.executeStage_of_none hd]; rfl, fun d k hd hk => ?_⟩
  obtain ⟨he, hen, -⟩ := h.executed hd hk
  rw [hen]
  refine ⟨rfl, _, rfl, rfl, rfl, rfl, rfl, rfl, ?_⟩
  cases k with
  | beq | bne | blt | bge | bltu | bgeu =>
    rw [executeKind_branch rfl]
    simp [ExOut.record, ExOut.branch, ExOut.empty, Kind.isLoad, Kind.isStore, Kind.isBranch]
  | jal | jalr =>
    simp [executeKind, exJal, exJalr, ExOut.record, ExOut.jump, ExOut.empty, DRec.link, Kind.isLoad, Kind.isStore, Kind.isBranch]
  | lb | lh | lw | lbu | lhu =>
    rw [executeKind_load rfl]
    simp [loadLen, loadSigned, ExOut.record, ExOut.load, ExOut.empty, DRec.effectiveAddress,
      Kind.isLoad, Kind.isStore, Kind.isBranch]
  | sb | sh | sw =>
    rw [executeKind_store rfl]
    simp [storeLen, ExOut.record, ExOut.store, ExOut.empty, DRec.effectiveAddress,
      Kind.isLoad, Kind.isStore, Kind.isBranch]
  | ecall => simp [executeKind, exEcall, ExOut.record, ExOut.empty, Kind.isLoad, Kind.isStore, Kind.isBranch]
  | _ =>
    obtain ⟨w, hw⟩ := executeKind_alu he rfl
    simp [hw, ExOut.record, ExOut.alu, ExOut.empty, Kind.isLoad, Kind.isStore, Kind.isBranch]

/-- Settles O42: each case is a control hazard of Execute to its target. -/
theorem controlHazardRedirects : Obligations.ControlHazardRedirects := by
  intro s t d k h hd hk target hcase
  refine h.of_hazard ?_
  obtain ⟨-, -, hctrl⟩ := h.executed hd hk
  rw [hctrl]
  rcases hcase with ⟨rfl, rfl⟩ | ⟨rfl, rfl⟩ | ⟨rfl, hne, rfl⟩ | ⟨rfl, hne, rfl⟩ | ⟨rfl, hne, rfl⟩ | ⟨rfl, hne, rfl⟩ |
    ⟨rfl, hne, rfl⟩ | ⟨rfl, hne, rfl⟩
  case inl | inr.inl => rfl
  all_goals exact ExOut.branch_ctrl hne

end

section
/-! SUPPORT. What Fetch and Decode give in a completed cycle (R320, R322 to R324, R338): the restored or fetched record, the record
decoded from it, the predictor's answer that it takes, and where fetch goes on. -/

namespace Sys2Proof.Machine

variable {s t u : State} {d : DRec} {f : FRec} {mn : Option MRec} {fx : Effects}

/-! ### Decode and the predictor -/

theorem State.cycleStart_decodeStage_of_none (hf : s.restoreOrTick.f.content = none) :
    s.cycleStart.decodeStage = { dn := none, env := s.env, call := none, event := none } := by
  simp [State.decodeStage, hf]

/-- A cycle that decodes a branch asks the predictor once, with the operands of the register file, and takes its answer; no other
cycle asks it (R68, R219, R324). -/
theorem State.decodeStage_draws (s : State) :
    s.cycleStart.decodeStage.call = s.decodedBranch.map (fun b =>
      .predict b.1.pc b.2.kind (s.readReg b.2.rs1) (s.readReg b.2.rs2) b.2.imm s.env.drawAnswer.1) ∧
    s.cycleStart.decodeStage.env = (if s.decodedBranch.isSome then s.env.drawAnswer.2 else s.env) ∧
    s.cycleStart.decodeStage.dn.any (·.predictedBranch) = (s.decodedBranch.isSome && s.env.drawAnswer.1) := by
  unfold State.decodedBranch
  cases hf : s.restoreOrTick.f.content with
  | none =>
    rw [State.cycleStart_decodeStage_of_none hf]
    exact ⟨rfl, rfl, rfl⟩
  | some f =>
    rw [State.cycleStart_decodeStage hf, Option.bind_some]
    rcases s.decodeRecord_cases f with ⟨e, he, hdn, henv, hcall⟩ | ⟨hp, i, hi, hdn, henv, hcall, -⟩
    · rw [hdn, henv, hcall]
      rcases he with ⟨hp, -⟩ | ⟨hp, r, hr, -⟩
      · simp [hp, poisonRecord]
      · simp [hp, hr, poisonRecord]
    · rw [hdn, henv, hcall]
      cases hb : i.kind.isBranch <;> simp [hp, hi, hb, State.decodeInstr, DRec.predicted, State.snapshot]

/-- An answer leaves the latencies. -/
theorem Env.drawAnswer_latencies (v : Env) :
    v.drawAnswer.2.latencies = v.latencies ∧ v.drawAnswer.2.latencyDraws = v.latencyDraws := by
  unfold Env.drawAnswer
  split <;> exact ⟨rfl, rfl⟩

/-- The latencies drawn depend on the queue and the count of their own draws. -/
theorem Env.drawLatencies_congr {v w : Env} (hl : v.latencies = w.latencies) (hn : v.latencyDraws = w.latencyDraws) (k : Nat) :
    (v.drawLatencies k).1 = (w.drawLatencies k).1 := by
  induction k generalizing v w with
  | zero => rfl
  | succ k ih =>
    have h1 : v.drawLatency.1 = w.drawLatency.1 ∧ v.drawLatency.2.latencies = w.drawLatency.2.latencies ∧
        v.drawLatency.2.latencyDraws = w.drawLatency.2.latencyDraws := by
      unfold Env.drawLatency
      rw [hl, hn]
      split <;> exact ⟨rfl, rfl, rfl⟩
    obtain ⟨h1, h2, h3⟩ := h1
    simp only [Env.drawLatencies, h1, ih h2 h3]

/-- The latencies of a cycle are those of the environment at its start: Decode draws answers only. -/
theorem State.decodeStage_latencies (s : State) (k : Nat) :
    (s.cycleStart.decodeStage.env.drawLatencies k).1 = (s.env.drawLatencies k).1 := by
  obtain ⟨-, henv, -⟩ := s.decodeStage_draws
  rw [henv]
  split_ifs
  · exact Env.drawLatencies_congr s.env.drawAnswer_latencies.1 s.env.drawAnswer_latencies.2 k
  · rfl

/-! ### Step 1 and `F` -/

@[simp] theorem State.restoreOrTick_f_stall (s : State) : s.restoreOrTick.f.stall = s.f.stall := by
  unfold State.restoreOrTick
  split_ifs <;> rfl

@[simp] theorem State.restoreOrTick_forwardFetcher (s : State) :
    s.restoreOrTick.fsm.forwardFetcher = s.fsm.forwardFetcher := by
  unfold State.restoreOrTick
  split_ifs <;> rfl

/-- A register that a condition bubbles, and else a record fills, is a bubble exactly when the condition holds. -/
theorem ite_none_some_eq_none {α : Type} {p : Prop} [Decidable p] {x : α} : (if p then none else some x) = none ↔ p := by
  split_ifs with h <;> simp [h]

theorem claimBubblesF_iff {claim : Option Claim} :
    claimBubblesF claim = true ↔ ∃ c, claim = some c ∧ 2 ≤ c.length.toNat := by
  unfold claimBubblesF
  cases claim <;> simp

/-- The fetched record: the word at `pc`, or the fault of a fetch that is not performed (R322, R323). -/
theorem State.fetchStage_fn (s : State) :
    s.fetchStage.fn = if accessOk s.params s.pc 4 then ⟨s.pc, s.mem.readLE s.pc.toNat 4, none⟩
      else ⟨s.pc, 0#32, some (.memoryFault s.pc 4 .fetch)⟩ := by
  unfold State.fetchStage State.memRead
  split_ifs <;> rfl

/-! ### Where fetch goes on (R37, R338) -/

/-- The hazard tiers keep whether the consumer is there, and whether it is predicted taken. -/
theorem hazardLogic_dn_any (par : Params) (dn : Option DRec) (en : Option ERec) (mn m : Option MRec) :
    (hazardLogic par dn en mn m).dn.any (·.predictedBranch) = dn.any (·.predictedBranch) ∧
      ((hazardLogic par dn en mn m).dn = none ↔ dn = none) := by
  cases dn with
  | none => exact ⟨rfl, Iff.rfl⟩
  | some d =>
    obtain ⟨d', hd', a, b, c, rfl⟩ := hazardLogic_dn_some par d en mn m
    simp [hd']

/-- The redirect is made for a consumer predicted taken, with no claim and no control hazard. -/
theorem redirectTarget_isSome (dn : Option DRec) (claim : Option Claim) (ctrl : Option Word) :
    (redirectTarget dn claim ctrl).isSome = (claim.isNone && ctrl.isNone && dn.any (·.predictedBranch)) := by
  unfold redirectTarget
  cases dn with
  | none => simp
  | some d =>
    simp only [Option.any_some]
    split_ifs with h
    · exact h.symm
    · simpa using h

/-- With no control hazard the redirect is that of the record latched into `D`. -/
theorem State.complete_redirect {c : CycleOut} (hstall : u.d.stall = 0#2) (hctrl : c.exe.ctrl = none) :
    c.redirect = (u.complete c).d.content.bind fun d => if d.predictedBranch then some d.predictedPC else none := by
  rw [State.complete_d_content hstall, CycleOut.redirect, hctrl]
  unfold redirectTarget
  cases c.haz.claim <;> cases c.haz.dn <;> simp

/-- The stages' hazard logic at the start of a cycle. -/
theorem State.cycleStart_haz (s : State) (mn : Option MRec) (fx : Effects) :
    (s.cycleStart.stages mn fx).haz =
      hazardLogic s.params s.cycleStart.decodeStage.dn s.cycleStart.executeStage.en mn s.m.content := by
  simp [State.stages]

/-- There is something to decode exactly when step 1 leaves a record in `F` (R324). -/
theorem State.decodeStage_dn_eq_none (s : State) : s.cycleStart.decodeStage.dn = none ↔ s.restoreOrTick.f.content = none := by
  cases hf : s.restoreOrTick.f.content with
  | none => simp [State.cycleStart_decodeStage_of_none hf]
  | some f =>
    obtain ⟨d, hd⟩ := s.decodeRecord_dn f
    simp [State.cycleStart_decodeStage hf, hd]

/-! ### The calls on the predictor port (R68) -/

@[simp] theorem State.cycleStart_predictorLog (s : State) : s.cycleStart.predictorLog = s.predictorLog := by
  simp only [State.cycleStart, State.restoreOrTick]
  split_ifs <;> rfl

/-- A completed cycle logs the call of Decode and then that of Execute (R331). -/
theorem State.complete_predictorLog (u : State) (c : CycleOut) :
    (u.complete c).predictorLog = u.predictorLog ++ c.dec.call.toList ++ c.exe.call.toList := by
  simp only [State.complete, State.applyEffects_predictorLog, State.writeBackStage_predictorLog]
  cases c.dec.call <;> cases c.exe.call <;> simp

/-- Of the predictor's answers a completed cycle takes what Decode took (R324). -/
theorem State.complete_answers (u : State) (c : CycleOut) :
    (u.complete c).env.answers = c.dec.env.answers ∧ (u.complete c).env.answerDraws = c.dec.env.answerDraws := by
  obtain ⟨-, -, hans, hdraws⟩ := c.dec.env.drawLatencies_keeps c.fx.accesses
  simp only [State.complete, State.applyEffects_answers, State.writeBackStage_env, State.logPredictor_env, hans, hdraws, and_self]

/-! ### The counters of a completed cycle (R340 to R342) -/

/-- A claim counts in its class. -/
theorem map_cls_eq_some {claim : Option Claim} {c : ClaimClass} :
    claim.map (·.cls) = some c ↔ claim.any (·.cls == c) = true := by
  cases claim <;> simp

/-- The counters of a completed cycle, from those at its start. -/
theorem State.cycleStart_complete_counters (c : CycleOut) : (s.cycleStart.complete c).counters =
    s.counters.cycle c s.retires (c.dec.env.drawLatencies c.fx.accesses).1 := by
  rw [State.complete_counters, s.cycleStart_counters]
  unfold State.retires
  rw [s.cycleStart_m]

/-! ### The accesses of the Memory stage (R91) -/

variable {e : ERec} {m : MRec}

/-- A load or a store makes one access. -/
theorem State.memoryAccess_done_accesses (h : s.memoryAccess e = .done m fx) (hmem : (e.readMem || e.writeMem) = true) :
    fx.accesses = 1 := by
  rcases State.memoryAccess_done h with ⟨-, -, -, rfl⟩ | ⟨-, -, -, -, rfl⟩ | ⟨hr, hw, -⟩ | ⟨hr, hw, -⟩
  · rfl
  · rfl
  · simp [hr, hw] at hmem
  · simp [hr, hw] at hmem

/-- A print-string call makes one for each byte that it reads, the terminator included. -/
theorem State.memoryAccess_done_string {n : Nat} (h : s.memoryAccess e = .done m fx) (hmem : (e.readMem || e.writeMem) = false)
    (hk : e.kind = .ecall) (hop : e.op2 = 0#32) (hstr : s.stringAt e.op1 n)
    (hok : accessOk s.params (e.op1 + BitVec.ofNat 32 n) 1 = true) (hb : s.mem.read (e.op1 + BitVec.ofNat 32 n).toNat = 0#8) :
    fx.accesses = n + 1 := by
  obtain ⟨hr, hw⟩ := Bool.or_eq_false_iff.1 hmem
  rw [State.memoryAccess_ecall hr hw hk, State.systemCall_printString hop, State.callPrintString,
    State.printString_ended hstr hok hb] at h
  obtain ⟨-, rfl⟩ := MemResult.done.inj h
  rfl

/-- Nothing else makes one. -/
theorem State.memoryAccess_done_no_access (h : s.memoryAccess e = .done m fx) (hr : e.readMem = false) (hw : e.writeMem = false)
    (hcall : e.kind = .ecall → e.op2 ≠ 0#32) : fx.accesses = 0 := by
  rcases State.memoryAccess_done h with ⟨hr', -⟩ | ⟨-, hw', -⟩ | ⟨-, -, hk, hc⟩ | ⟨-, -, -, -, rfl⟩
  · simp [hr] at hr'
  · simp [hw] at hw'
  · rcases (State.systemCall_done hc).2 with ⟨hop, -⟩ | ⟨-, -, rfl⟩ | ⟨-, -, rfl⟩ | ⟨_, _, -, -, -, rfl⟩ | ⟨_, _, -, -, -, rfl⟩
    · exact absurd hop (hcall hk)
    all_goals rfl
  · rfl

end Sys2Proof.Machine

open Sys2Proof Sys2Proof.Machine

/-- Settles O45: what Decode and Fetch see is the state that step 1 leaves. -/
theorem restoreAndTick : Obligations.RestoreAndTick := by
  intro s
  refine ⟨fun h => ?_, fun h => ?_, State.restoreOrTick_of_idle⟩
  · have hr := State.restoreOrTick_of_restore h
    refine ⟨by rw [hr], by rw [hr], ?_, ?_, by simp [hr]⟩
    · cases hg : s.fsm.saved with
      | none => exact State.cycleStart_decodeStage_of_none (by rw [hr]; exact hg)
      | some g => exact State.cycleStart_decodeStage (by rw [hr]; exact hg)
    · simp [State.fetchStage, State.memRead, hr]
  · exact State.restoreOrTick_of_tick (by rintro h1; simp [h1] at h) (by rintro h0; simp [h0] at h)

/-- Settles O32: F latches what Fetch read unless one of the four rules bubbles it. -/
theorem fetchLatchesWord : Obligations.FetchLatchesWord := by
  refine ⟨fun s t f h hstall hf => ?_, fun s t mn fx h hstall hm => ?_⟩
  · obtain ⟨-, -, mn, fx, -, -, rfl⟩ := h.cases
    rw [State.complete_f_content (by simpa using hstall), Option.ite_none_left_eq_some] at hf
    obtain rfl : s.cycleStart.fetchStage.fn = f := Option.some.inj hf.2
    have hpc : s.cycleStart.fetchStage.fn.pc = s.cycleStart.pc := State.fetchStage_pc _
    rw [hpc, State.fetchStage_fn, ← Memory.readLE_four, ← s.cycleStart_params, ← s.cycleStart_mem]
    exact ⟨s.cycleStart_pc, fun hok => by rw [hok]; exact ⟨rfl, rfl⟩, fun hok => by rw [hok]; exact ⟨rfl, rfl⟩⟩
  · obtain ⟨-, -, mn', fx', hm', -, rfl⟩ := h.cases
    obtain ⟨rfl, rfl⟩ := hm'.unique hm
    obtain ⟨-, -, hpredicted⟩ := s.decodeStage_draws
    rw [State.complete_f_content (by simpa using hstall), CycleOut.redirect, redirectTarget_isSome, State.cycleStart_haz,
      (hazardLogic_dn_any ..).1, hpredicted, State.cycleStart_fsm, State.restoreOrTick_forwardFetcher]
    dsimp only
    rw [ite_none_some_eq_none, ← claimBubblesF_iff]
    change (_ || _ || s.cycleStart.executeStage.ctrl.isSome || (_ && s.cycleStart.executeStage.ctrl.isNone && _)) = true ↔ _
    cases s.cycleStart.executeStage.ctrl <;> simp [or_assoc]

/-- Settles O33: the tiers change operands only, so that the record latched is the decoded one; the calls are those of Decode and
Execute. -/
theorem decodeLatchesRecord : Obligations.DecodeLatchesRecord := by
  refine ⟨fun s t f d h hstall hf hd => ?_, fun s t mn fx h hstall hm => ?_, fun s t h => ?_⟩
  · obtain ⟨-, g, d0, mn, fx, hg, hd0, -, -, hdn, -⟩ := h.latched hstall hd
    obtain rfl : g = f := Option.some.inj (hg.symm.trans hf)
    obtain ⟨a, b, c, hre⟩ : d0.ReOperanded d := hdn ▸ hazardTiers_reOperanded ..
    subst hre
    rcases s.decodeRecord_cases g with ⟨e, he, hde, -⟩ | ⟨hp, i, hi, hdi, -⟩
    · obtain rfl := Option.some.inj (hd0.symm.trans hde)
      rcases he with ⟨hp, -⟩ | ⟨hp, r, hr, rfl, -⟩
      · simp [hp, poisonRecord]
      · simp [hp, hr, poisonRecord]
    · obtain rfl := Option.some.inj (hd0.symm.trans hdi)
      rw [State.decodeInstr_record]
      unfold State.recordOf
      cases hb : i.kind.isBranch <;> simp [hp, hi, hb, DRec.predicted, State.snapshot]
  · obtain ⟨-, -, mn', fx', hm', -, rfl⟩ := h.cases
    obtain ⟨rfl, rfl⟩ := hm'.unique hm
    have hdn := (hazardLogic_dn_any s.params s.cycleStart.decodeStage.dn s.cycleStart.executeStage.en mn' s.m.content).2
    rw [State.decodeStage_dn_eq_none] at hdn
    rw [State.complete_d_content (by simpa using hstall), State.cycleStart_haz, ← hdn]
    generalize hazardLogic s.params _ _ mn' s.m.content = q
    change (if (q.claim.isSome || s.cycleStart.executeStage.ctrl.isSome) = true then none else q.dn) = none ↔ _
    cases q.claim <;> cases s.cycleStart.executeStage.ctrl <;> simp
  · obtain ⟨-, -, mn, fx, -, hy, rfl⟩ := h.cases
    obtain ⟨hcall, henv, -⟩ := s.decodeStage_draws
    obtain ⟨-, hupdate, -⟩ := State.executeStage_of_no_event h.execute.1
    obtain ⟨hans, hdraws⟩ := s.cycleStart.complete_answers (s.cycleStart.stages mn fx)
    rw [State.complete_predictorLog, hans, hdraws]
    change s.cycleStart.predictorLog ++ s.cycleStart.decodeStage.call.toList ++ s.cycleStart.executeStage.call.toList = _ ∧
      (_ → s.cycleStart.decodeStage.env.answers = _ ∧ s.cycleStart.decodeStage.env.answerDraws = _) ∧
      (_ → s.cycleStart.decodeStage.env.answers = _ ∧ s.cycleStart.decodeStage.env.answerDraws = _)
    rw [s.cycleStart_executeStage, hcall, hupdate, henv, s.cycleStart_predictorLog]
    refine ⟨congrArg₂ (· ++ ·) (congrArg _ ?_) ?_, fun hb => ?_, fun hb => ?_⟩
    · cases s.decodedBranch <;> rfl
    · cases s.resolved <;> rfl
    · rw [if_pos hb]
      exact ⟨rfl, rfl⟩
    · simp [hb]

/-- Settles O43: without a control hazard the redirect is that of the record latched into `D`. -/
theorem predictedTakenRedirects : Obligations.PredictedTakenRedirects := by
  intro s t h hstall hctrl
  obtain ⟨-, -, mn, fx, -, -, rfl⟩ := h.cases
  have hctrl' : (s.cycleStart.stages mn fx).exe.ctrl = none := hctrl
  have hredirect := State.complete_redirect (u := s.cycleStart) (by simpa using hstall) hctrl'
  have hpc : (s.cycleStart.stages mn fx).fet.pcNext = s.restoreOrTick.pc + 4#32 := by
    rw [← s.cycleStart_pc, ← s.cycleStart.fetchStage_pc]
    exact State.fetchStage_pcNext _
  rw [State.complete_pc, hctrl', hpc]
  refine ⟨fun d hd hp => ?_, fun d hd hp => ?_, fun hd => ?_⟩
  · rw [hd] at hredirect
    simp [hredirect, hp, choosePC, State.nextF]
  · rw [hd] at hredirect
    simp [hredirect, hp, choosePC]
  · rw [hd] at hredirect
    simp [hredirect, choosePC]

/-- Settles O50: each counter's clause is one fact of the stages. -/
theorem countersOfACycle : Obligations.CountersOfACycle := by
  intro s t mn fx h hm
  obtain ⟨-, -, mn', fx', hm', -, rfl⟩ := h.cases
  obtain ⟨rfl, rfl⟩ := hm'.unique hm
  obtain ⟨hpenalty, -, hhits, hmisses⟩ := State.executeStage_of_no_event h.execute.1
  have hlatency := s.decodeStage_latencies fx'.accesses
  rw [← s.cycleStart_executeStage] at hpenalty hhits hmisses
  intro q
  have hq : (s.cycleStart.stages mn' fx').haz = q := s.cycleStart_haz mn' fx'
  rw [State.cycleStart_complete_counters]
  refine ⟨?_, fun e he hmem => ?_, fun e n he hmem hk hop hstr hok hb => ?_, fun hnone => ?_, rfl, ?_, ?_, ?_, ?_, rfl⟩
  · exact (Nat.add_right_comm ..).trans
      (congrArg₂ (fun n p => s.counters.cycleCount + 1 + n + p) hlatency hpenalty)
  · obtain ⟨m, hdone, -⟩ := hm.of_record he
    exact State.memoryAccess_done_accesses hdone hmem
  · obtain ⟨m, hdone, -⟩ := hm.of_record he
    exact State.memoryAccess_done_string hdone hmem hk hop hstr hok hb
  · cases he : s.e.content with
    | none => rw [(hm.of_bubble he).2]; rfl
    | some e =>
      obtain ⟨m, hdone, -⟩ := hm.of_record he
      rw [he, Option.all_some] at hnone
      simp only [Bool.and_eq_true, Bool.not_eq_true'] at hnone
      obtain ⟨⟨hr, hw⟩, hcall⟩ := hnone
      exact State.memoryAccess_done_no_access hdone hr hw (by rintro hk hop; simp [hk, hop] at hcall)
  · exact congrArg (s.counters.branchHit + ·) hhits
  · exact congrArg (s.counters.branchMiss + ·) hmisses
  · rw [← hq]
    exact congrArg (Nat.add _) (if_congr map_cls_eq_some rfl rfl)
  · rw [← hq]
    exact congrArg (Nat.add _) (if_congr map_cls_eq_some rfl rfl)

end

section
/-! SUPPORT. A word placed in `D`, and the cycles of an instruction that is alone in the pipeline (R325 to R333, R346). -/

namespace Sys2Proof

variable {m : MSet} {w : Word} {i : Instr}

/-- The four bytes of a word make it up again (R83, R110). -/
theorem wordOfBytes_bytesOfWord (w : Word) :
    wordOfBytes (w.extractLsb' 0 8) (w.extractLsb' 8 8) (w.extractLsb' 16 8) (w.extractLsb' 24 8) = w := by
  unfold wordOfBytes
  rw [putField_or_putField 32 _ (w.extractLsb' 16 8) 16, putField_or_putField 32 _ (w.extractLsb' 8 8) 8,
    putField_or_putField 32 _ (w.extractLsb' 0 8) 0, putField_self,
    BitVec.extractLsb'_append_extractLsb'_eq_extractLsb' (by decide),
    BitVec.extractLsb'_append_extractLsb'_eq_extractLsb' (by decide),
    BitVec.extractLsb'_append_extractLsb'_eq_extractLsb' (by decide)]
  exact BitVec.extractLsb'_eq_self

/-- The decoder that the host asks is the whole table on the placed bits. -/
theorem decode_of_decodeTableWord {nbits n : Nat} (h : decodeTableWord nbits n = some i) :
    decode .full8 (BitVec.ofNat 32 (n % 2 ^ nbits)) = .ok i := by
  simp only [decodeTableWord, bytesOfWord, decodeBytes, wordOfBytes_bytesOfWord] at h
  cases hd : decode .full8 (BitVec.ofNat 32 (n % 2 ^ nbits)) with
  | error r => simp [hd, Except.map] at h
  | ok j => simpa [hd, Except.map] using h

/-- What decodes under either setting decodes under `Full8` to the same instruction (R125). -/
theorem decode_full8_of_decode (h : decode m w = .ok i) : decode .full8 w = .ok i := by
  obtain ⟨-, hrow, hfields⟩ := decode_isRowOf h
  rw [hfields]
  exact decode_of_row (by cases i.kind <;> rfl) hrow

/-- The setting chosen for a word decodes it. -/
theorem decode_mSetFor (p : Params) (h : decode .full8 w = .ok i) : decode (Machine.mSetFor p w) w = .ok i := by
  unfold Machine.mSetFor
  cases hp : decode p.mSet w with
  | error r => simp [h]
  | ok j =>
    obtain rfl := Except.ok.inj ((decode_full8_of_decode hp).symm.trans h)
    exact hp

end Sys2Proof

namespace Sys2Proof.Machine

variable {s t u : State} {d : DRec} {e : ERec} {m : MRec} {mn : Option MRec} {fx : Effects} {k : Kind} {i : Instr} {w : Word}
  {v : FatalEvent}

/-! ### A cycle whose Decode and Fetch raise nothing -/

/-- A running state whose next cycle passes the guard and raises nothing at Decode or Fetch (R321, R323, R324). -/
structure State.Ready (u : State) : Prop where
  running : u.status = .running
  guard : u.guardFails = false
  deferred : u.params.specFault = .deferred

theorem State.MemoryDone.bubble (he : u.e.content = none) : u.cycleStart.MemoryDone none Effects.nothing :=
  .inl ⟨by simpa using he, rfl, rfl⟩

theorem State.MemoryDone.record (he : u.e.content = some e) (h : u.memoryAccess e = .done m fx) :
    u.cycleStart.MemoryDone (some m) fx :=
  .inr ⟨e, m, by simpa using he, by simpa using h, rfl⟩

/-- The guard reads the stack pointer and the floor (R321). -/
theorem State.guardFails_congr (hx : t.x = s.x) (hp : t.params = s.params) : t.guardFails = s.guardFails := by
  unfold State.guardFails State.sp
  rw [State.readReg_congr hx, hp]

namespace State.Ready

theorem cycleStart_guard (h : u.Ready) : u.cycleStart.guardFails = false := u.cycleStart_guardFails.trans h.guard

theorem congr (h : s.Ready) (hx : t.x = s.x) (hp : t.params = s.params) (hrun : t.status = .running) : t.Ready :=
  ⟨hrun, (State.guardFails_congr hx hp).trans h.guard, by rw [hp, h.deferred]⟩

/-- The event of such a cycle is that of Execute. -/
theorem youngerEvent (h : u.Ready) (mn : Option MRec) (fx : Effects) :
    (u.cycleStart.stages mn fx).youngerEvent = u.executeStage.event := by
  have hdeferred : u.cycleStart.params.specFault ≠ .immediate := by simp [h.deferred]
  have hdec : u.cycleStart.decodeStage.event = none :=
    Option.eq_none_iff_forall_ne_some.2 fun v hv => hdeferred (State.decodeStage_event.1 hv).1
  have hfet : u.cycleStart.fetchStage.event = none :=
    Option.eq_none_iff_forall_ne_some.2 fun v hv => hdeferred (State.fetchStage_event.1 hv).1
  rw [← u.cycleStart_executeStage]
  unfold CycleOut.youngerEvent
  simp only [State.stages, hdec, hfet]
  cases u.cycleStart.executeStage.event <;> rfl

/-- Without an event at Execute it completes (R331). -/
theorem cycles (h : u.Ready) (hm : u.cycleStart.MemoryDone mn fx) (he : u.executeStage.event = none) :
    u.Cycles (u.cycleStart.complete (u.cycleStart.stages mn fx)) :=
  .intro h.running h.cycleStart_guard hm ((h.youngerEvent mn fx).trans he)

/-- With one it ends the run (R332). -/
theorem step_of_event (h : u.Ready) (hm : u.cycleStart.MemoryDone mn fx) (he : u.executeStage.event = some v) :
    ∃ t, step u = .next t ∧ t.status = .fatal v := by
  refine ⟨_, step_of_memoryDone h.running h.cycleStart_guard hm, ?_⟩
  rw [State.merge, (h.youngerEvent mn fx).trans he]
  rfl

end State.Ready

/-! ### The instruction in `D` -/

/-- Nothing is in flight but the record `r` in `D`, and fetch goes on where its decoder sent it. -/
structure State.LoneInD (u : State) (r : DRec) : Prop where
  f : u.f = Slot.empty
  d : u.d = ⟨some r, 0#2⟩
  e : u.e = Slot.empty
  m : u.m = Slot.empty
  idle : u.fsm.countdown = 0#2
  flag : u.fsm.forwardFetcher = false
  pc : u.pc = r.predictedNext

@[simp] theorem State.decodeInstr_kind (pc inst : Word) : (s.decodeInstr pc inst i).record.kind = .real i.kind := by
  rw [State.decodeInstr_record, State.recordOf_kind]

/-- Placing a word that decodes leaves its record alone in `D`. -/
theorem State.placeInD_loneInD (h : decode s.params.mSet w = .ok i) :
    (s.placeInD w).LoneInD (s.decodeInstr s.pc w i).record := by
  have hdec : (s.decodeRecord ⟨s.pc, w, none⟩).dn = some (s.decodeInstr s.pc w i).record := by simp [State.decodeRecord, h]
  refine ⟨rfl, by simp [State.placeInD, hdec], rfl, rfl, rfl, rfl, by simp [State.placeInD, hdec]⟩

/-- It leaves what the program sees. -/
theorem State.placeInD_sameView (h : decode s.params.mSet w = .ok i) : (s.placeInD w).SameView s := by
  obtain ⟨hchars, hints⟩ := s.decodeInstr_env s.pc w i
  have hdec : (s.decodeRecord ⟨s.pc, w, none⟩).env = (s.decodeInstr s.pc w i).env := by simp [State.decodeRecord, h]
  exact ⟨rfl, rfl, rfl, (congrArg Env.chars hdec).trans hchars, (congrArg Env.ints hdec).trans hints, rfl⟩

theorem executeRecord_real_no_event {p : Params} (hk : d.kind = .real k) (h : (executeKind k p d).event = none) :
    (executeRecord p d).event = none := by
  simp [executeRecord, hk, h]

theorem executeRecord_event {p : Params} (hk : d.kind = .real k) (h : (executeKind k p d).event = some v) :
    (executeRecord p d).event = some v := by
  simp [executeRecord, hk, h, ExecuteOut.bubble]

/-- The rules read of the parameters `DIV_CORNER` alone, so not `M_SET` (R325). -/
theorem executeKind_mSet (k : Kind) (p : Params) (d : DRec) (ms : MSet) :
    executeKind k { p with mSet := ms } d = executeKind k p d := by
  cases k <;> rfl

/-- The cycle of a lone record in `D` whose kind's rule raises nothing puts the rule's record into `E` (R325). -/
theorem State.LoneInD.cycles (hl : u.LoneInD d) (h : u.Ready) (hk : d.kind = .real k)
    (he : (executeKind k u.params d).event = none) :
    u.Cycles (u.cycleStart.complete (u.cycleStart.stages none Effects.nothing)) ∧
      (u.cycleStart.complete (u.cycleStart.stages none Effects.nothing)).e.content = some ((executeKind k u.params d).record k d) := by
  have hd : u.d.content = some d := by rw [hl.d]
  have hexe := State.executeStage_of_some hd
  have hc := h.cycles (.bubble (by rw [hl.e]; rfl)) (by rw [hexe, executeRecord_real_no_event hk he])
  refine ⟨hc, ?_⟩
  rw [hc.execute.2 (by rw [hl.e]; rfl), hexe, (executeRecord_real hk he).1]

end Sys2Proof.Machine

open Sys2Proof Sys2Proof.Machine

/-- Settles O57: the word stands in `D` as the decoder's record, and the cycle that executes it raises nothing. -/
theorem stepExecutesPlacedWord : Obligations.StepExecutesPlacedWord := by
  intro s nbits n i hrun hguard hdeferred hdec d he
  have hi := decode_mSetFor s.params (decode_of_decodeTableWord hdec)
  have hl : (s.withFetchWord nbits n).LoneInD d := State.placeInD_loneInD hi
  have hready : (s.withFetchWord nbits n).Ready := ⟨hrun, hguard, hdeferred⟩
  have hp := executeKind_mSet i.kind s.params d (mSetFor s.params (BitVec.ofNat 32 (n % 2 ^ nbits)))
  have hk : d.kind = .real i.kind := State.decodeInstr_kind ..
  obtain ⟨hc, hlatch⟩ := hl.cycles hready hk ((congrArg ExOut.event hp).trans he)
  exact ⟨_, hc.1, hc.2, hlatch.trans (congrArg (fun o => some (o.record i.kind d)) hp)⟩

end

section
/-! SUPPORT. The cycles of an instruction that is alone in the pipeline, against its meaning (R325 to R333, R338, R346). -/

namespace Sys2Proof.Machine

variable {s t u : State} {d : DRec} {e : ERec} {m : MRec} {mn : Option MRec} {fx : Effects} {k : Kind} {i : Instr} {w : Word}
  {v : FatalEvent}

/-! ### The end of the run does not depend on what the program does not see -/

namespace State.SameView

theorem count (h : s.SameView t) (a b a' b' : Nat) : (s.count a b).SameView (t.count a' b') := { h with }

theorem raise (h : s.SameView t) (v v' : FatalEvent) : (s.raise v).SameView (t.raise v') := { h with }

theorem exitRun (h : s.SameView t) : s.exitRun.SameView t.exitRun ∧ s.exitRun.status = t.exitRun.status := by
  rw [State.exitRun_eq, State.exitRun_eq]
  refine ⟨{ h with x := by simp [h.x] }, ?_⟩
  simp only [State.readReg_congr h.x, h.params]

end State.SameView

/-! ### One cycle -/

/-- Whether or not the cycle completes, its merge leaves what the program sees after WriteBack and Memory, and counts the retiring
instruction (R331, R332). -/
theorem State.merge_sameView (hx : s.x[0] = 0#32) (mn : Option MRec) (fx : Effects) :
    (s.cycleStart.merge (s.cycleStart.stages mn fx)).SameView (s.writeBackStage.applyEffects fx) ∧
    (s.cycleStart.merge (s.cycleStart.stages mn fx)).counters.instCount = s.counters.instCount + s.retires := by
  unfold State.merge
  split
  · refine ⟨?_, by simp [State.retires]⟩
    exact { ((State.cycleStart_sameView hx).writeBackStage (by simp)).applyEffects fx with }
  · refine ⟨State.cycleStart_complete_sameView hx mn fx, ?_⟩
    rw [State.cycleStart_complete_counters]
    rfl

/-- A completed cycle that retires nothing leaves what the program sees after the Memory stage's effects, and is ready again. -/
theorem State.Ready.complete (h : u.Ready) (hx : u.x[0] = 0#32) (hm : u.m.content = none) :
    (u.cycleStart.complete (u.cycleStart.stages mn fx)).SameView (u.applyEffects fx) ∧
    (u.cycleStart.complete (u.cycleStart.stages mn fx)).counters.instCount = u.counters.instCount ∧
    (u.cycleStart.complete (u.cycleStart.stages mn fx)).Ready := by
  have hview := State.cycleStart_complete_sameView hx mn fx
  rw [State.writeBackStage_of_none hm] at hview
  refine ⟨hview, ?_, ?_⟩
  · rw [State.cycleStart_complete_counters]
    simp [Counters.cycle, State.retires, hm]
  · exact h.congr (hview.x.trans (u.applyEffects_x fx)) (hview.params.trans (u.applyEffects_params fx)) (by simp [h.running])

/-! ### The instruction in `E`, and then in `M` -/

/-- The record `r` in `E` has nothing in flight in front of it or right behind it. -/
structure State.LoneInE (u : State) (r : ERec) : Prop where
  d : u.d.content = none
  e : u.e = ⟨some r, 0#2⟩
  m : u.m = Slot.empty

/-- After the cycle of a lone record in `D` the record of its kind's rule is alone in `E`, and the front of the pipeline is the next
instruction (R325, R337, R338). -/
theorem State.LoneInD.complete (hl : u.LoneInD d) (hk : d.kind = .real k) (he : (executeKind k u.params d).event = none) :
    (u.cycleStart.complete (u.cycleStart.stages none Effects.nothing)).LoneInE ((executeKind k u.params d).record k d) ∧
    (u.cycleStart.complete (u.cycleStart.stages none Effects.nothing)).frontPC = nextPC (executeKind k u.params d) d := by
  have hd : u.d.content = some d := by rw [hl.d]
  obtain ⟨hen, hctrl⟩ := executeRecord_real hk he
  rw [← State.executeStage_of_some hd, ← u.cycleStart_executeStage] at hen hctrl
  have hstart := State.restoreOrTick_of_idle hl.idle
  have hf : u.cycleStart.f = Slot.empty := by rw [u.cycleStart_f, hstart, hl.f]
  have hhaz := u.cycleStart.stages_haz_of_empty (mn := none) (fx := Effects.nothing) (by rw [hf]; rfl)
  refine ⟨⟨?_, ?_, ?_⟩, ?_⟩
  · rw [State.complete_d_content (by simp [hl.d]), hhaz]
    simp
  · rw [State.complete_e, u.cycleStart_e, hl.e]
    exact congrArg (Slot.mk · 0#2) hen
  · rw [State.complete_m, u.cycleStart_m, hl.m]
    rfl
  · rw [nextPC_eq, ← hctrl]
    cases hc : u.cycleStart.executeStage.ctrl with
    | some target => exact State.complete_frontPC_of_hazard (by rw [hf]; rfl) hc
    | none =>
      have hctrl' : (u.cycleStart.stages none Effects.nothing).exe.ctrl = none := hc
      have hfsm : (u.cycleStart.complete (u.cycleStart.stages none Effects.nothing)).fsm =
          { u.cycleStart.fsm with forwardFetcher := false } := State.nextFsm_of_none hctrl' (by rw [hhaz])
      have hfetch : (u.cycleStart.stages none Effects.nothing).fet.fn.pc = u.cycleStart.pc := u.cycleStart.fetchStage_pc
      rw [State.frontPC_of_idle (by rw [hfsm]; simp [hstart, hl.idle]), State.complete_f_content (by rw [hf]; rfl)]
      simp [hctrl', hhaz, CycleOut.redirect, redirectTarget, claimBubblesF, hfetch, hstart, hl.flag, hl.pc]

/-- The cycle of a lone record in `E` that its Memory stage completes puts the record it gives into `M` (R327). -/
theorem State.LoneInE.complete (hl : u.LoneInE e) (h : u.Ready) (hdone : u.memoryAccess e = .done m fx) :
    u.Cycles (u.cycleStart.complete (u.cycleStart.stages (some m) fx)) ∧
    (u.cycleStart.complete (u.cycleStart.stages (some m) fx)).e.content = none ∧
    (u.cycleStart.complete (u.cycleStart.stages (some m) fx)).m.content = some m := by
  have hexe := State.executeStage_of_none hl.d
  have hc := h.cycles (.record (by rw [hl.e]) hdone) (by rw [hexe]; rfl)
  refine ⟨hc, ?_, ?_⟩
  · rw [hc.execute.2 (by rw [hl.e]), hexe]
    rfl
  · exact Slot.commit_content _ (by rw [u.cycleStart_m, hl.m]; rfl)

/-- The cycle of a record in `M` with a bubble behind it writes it back and counts it, whatever the younger stages do (R328, R341). -/
theorem State.Ready.retire (h : u.Ready) (hx : u.x[0] = 0#32) (he : u.e.content = none) (hm : u.m.content = some m) :
    ∃ t, step u = .next t ∧ t.SameView (u.writeBack m) ∧ t.counters.instCount = u.counters.instCount + 1 := by
  obtain ⟨hview, hcount⟩ := State.merge_sameView hx none Effects.nothing
  refine ⟨_, step_of_memoryDone h.running h.cycleStart_guard (.bubble he), ?_, ?_⟩
  · rwa [State.writeBackStage_of_some hm, State.applyEffects_nothing] at hview
  · simpa [State.retires, hm] using hcount

/-! ### The placed instruction and its meaning -/

/-- The rule of its kind gives for the placed word what it gives for the instruction run by itself (R325). -/
theorem State.executeKind_placed (s : State) (w : Word) (i : Instr) :
    (executeKind i.kind s.params (s.decodeInstr s.pc w i).record).event = (s.executedAlone i).event ∧
    (executeKind i.kind s.params (s.decodeInstr s.pc w i).record).record i.kind (s.decodeInstr s.pc w i).record =
      s.recordAlone i ∧
    nextPC (executeKind i.kind s.params (s.decodeInstr s.pc w i).record) (s.decodeInstr s.pc w i).record =
      nextPC (s.executedAlone i) (s.decodedAlone i).record := by
  have h := s.executeKind_recordOf s.params s.pc w (encode i) i s.env.drawAnswer.1 s.env.drawAnswer.1
  rw [← State.decodeInstr_record, ← State.decodeInstr_record] at h
  exact h

/-- An instruction run by itself waits only for its system call (R250). -/
theorem exec_fault {f : Fault} (h : exec i s = .fault f) :
    (s.executedAlone i).event = none ∧ s.memoryAccess (s.recordAlone i) = .stuck f := by
  cases he : (s.executedAlone i).event with
  | some v => rw [exec_of_event he] at h; cases h
  | none =>
    rw [exec_of_no_event he] at h
    refine ⟨rfl, ?_⟩
    cases ha : s.memoryAccess (s.recordAlone i) with
    | stuck g => rw [ha] at h; exact congrArg MemResult.stuck (Host.Outcome.fault.inj h)
    | fatal | exit | done => rw [ha] at h; cases h

/-- The first cycle of a placed instruction, when its rule raises nothing: the record that its meaning computes comes to stand alone
in `E`, and the front of the pipeline is the next address. -/
theorem State.Ready.step_placeInD (h : s.Ready) (hx : s.x[0] = 0#32) (hi : decode s.params.mSet w = .ok i)
    (he : (s.executedAlone i).event = none) :
    ∃ t, step (s.placeInD w) = .next t ∧ t.Ready ∧ t.SameView s ∧ t.counters.instCount = s.counters.instCount ∧
      t.LoneInE (s.recordAlone i) ∧ t.frontPC = nextPC (s.executedAlone i) (s.decodedAlone i).record := by
  obtain ⟨hevent, hrecord, hnext⟩ := s.executeKind_placed w i
  have hl := State.placeInD_loneInD hi
  have hu : (s.placeInD w).Ready := h.congr rfl rfl h.running
  obtain ⟨hcycles, -⟩ := hl.cycles hu (State.decodeInstr_kind ..) (hevent.trans he)
  obtain ⟨hlone, hfront⟩ := hl.complete (State.decodeInstr_kind ..) (hevent.trans he)
  obtain ⟨hview, hcount, hready⟩ := hu.complete hx (by rw [hl.m]; rfl) (mn := none) (fx := Effects.nothing)
  rw [State.applyEffects_nothing] at hview
  exact ⟨_, hcycles.1, hready, hview.trans (State.placeInD_sameView hi), hcount, hrecord ▸ hlone, hfront.trans hnext⟩

/-- When its rule raises an event, that cycle ends the run with it (R332). -/
theorem State.Ready.step_placeInD_event (h : s.Ready) (hi : decode s.params.mSet w = .ok i)
    (he : (s.executedAlone i).event = some v) : ∃ t, step (s.placeInD w) = .next t ∧ t.status = .fatal v := by
  obtain ⟨hevent, -⟩ := s.executeKind_placed w i
  have hl := State.placeInD_loneInD hi
  have hu : (s.placeInD w).Ready := h.congr rfl rfl h.running
  refine hu.step_of_event (.bubble (by rw [hl.e]; rfl)) ?_
  rw [State.executeStage_of_some (by rw [hl.d])]
  exact executeRecord_event (State.decodeInstr_kind ..) (hevent.trans he)

/-- The last two cycles of an instruction whose Memory stage completes: its effects, its write, and the count (R327, R328). -/
theorem State.LoneInE.steps (hl : u.LoneInE e) (h : u.Ready) (hx : u.x[0] = 0#32) (hdone : u.memoryAccess e = .done m fx) :
    ∃ s t, step u = .next s ∧ step s = .next t ∧ t.SameView ((u.applyEffects fx).writeBack m) ∧
      t.counters.instCount = u.counters.instCount + 1 := by
  obtain ⟨hcycles, he, hm⟩ := hl.complete h hdone
  obtain ⟨hview, hcount, hready⟩ := h.complete hx (by rw [hl.m]; rfl) (mn := some m) (fx := fx)
  obtain ⟨t, hstep, hview', hcount'⟩ := hready.retire (by simp) he hm
  exact ⟨_, t, hcycles.1, hstep, hview'.trans (hview.writeBack m), hcount'.trans (by rw [hcount])⟩

end Sys2Proof.Machine

open Sys2Proof Sys2Proof.Machine

/-- Settles O58: the answer of the Memory stage, which sees in the second cycle what it sees in the meaning, decides. -/
theorem threeCyclesRunTheMeaning : Obligations.ThreeCyclesRunTheMeaning := by
  intro s w i hrun hx hguard hdeferred hi
  have hready : s.Ready := ⟨hrun, hguard, hdeferred⟩
  refine ⟨fun t hexec hrun' => ?_, fun t hexec hrun' => ?_, fun v hexec => ?_⟩
  · obtain ⟨v, -, rfl⟩ | ⟨he, ⟨v, printed, -, rfl⟩ | ⟨-, rfl⟩ | ⟨m, fx, hdone, rfl⟩⟩ := exec_cases hexec
    · cases hrun'
    · cases hrun'
    · exact absurd hrun' (State.exitRun_not_running _)
    obtain ⟨s1, hs1, hready1, hview, hcount, hlone, hfront⟩ := hready.step_placeInD hx hi he
    obtain ⟨s2, s3, hs2, hs3, hview', hcount'⟩ :=
      hlone.steps hready1 (by simpa [hview.x] using hx) ((hview.memoryAccess _).trans hdone)
    obtain ⟨hx', hmem, hconsole, hchars, hints, -⟩ :=
      (hview'.trans ((hview.applyEffects fx).writeBack m)).trans (s.completeAlone_sameView i m fx).symm
    refine ⟨s1, s2, s3, hs1, hs2, hs3, hx', hmem, hconsole, hchars, hints, ?_, hfront⟩
    rw [hcount', hcount]
    rfl
  · obtain ⟨v, he, rfl⟩ | ⟨he, hends⟩ := exec_cases hexec
    · obtain ⟨s1, hs1, hstatus⟩ := hready.step_placeInD_event hi he
      exact ⟨s1, hs1, .inl hstatus⟩
    obtain ⟨s1, hs1, hready1, hview, -, hlone, -⟩ := hready.step_placeInD hx hi he
    have hview' : s1.cycleStart.writeBackStage.SameView s := by
      rw [State.writeBackStage_of_none (by rw [s1.cycleStart_m, hlone.m]; rfl)]
      exact (State.cycleStart_sameView (by simpa [hview.x] using hx)).trans hview
    have hE : s1.e.content = some (s.recordAlone i) := by rw [hlone.e]
    refine ⟨s1, hs1, .inr ?_⟩
    obtain ⟨v, printed, hfatal, rfl⟩ | ⟨hexit, rfl⟩ | ⟨m, fx, -, rfl⟩ := hends
    · obtain ⟨hx', hmem, hconsole, -⟩ := hview'.emit printed
      exact ⟨_, step_of_memory_fatal hready1.running hready1.cycleStart_guard hE ((hview.memoryAccess _).trans hfatal),
        rfl, hx', hmem, hconsole⟩
    · obtain ⟨⟨hx', hmem, hconsole, -⟩, hstatus⟩ := (hview'.count 1 (s1.cycleStart.retires + 1) 0 1).exitRun
      exact ⟨_, step_of_memory_exit hready1.running hready1.cycleStart_guard hE ((hview.memoryAccess _).trans hexit),
        hstatus, hx', hmem, hconsole⟩
    · rw [State.completeAlone_status] at hrun'
      exact absurd hrun hrun'
  · obtain ⟨he, hstuck⟩ := exec_fault hexec
    obtain ⟨s1, hs1, hready1, hview, -, hlone, -⟩ := hready.step_placeInD hx hi he
    exact ⟨s1, hs1, step_of_memory_stuck hready1.running hready1.cycleStart_guard (by rw [hlone.e])
      ((hview.memoryAccess _).trans hstuck)⟩

end

section
/-! SUPPORT. Coherence in `D` (R440), and the state after reset (R431). -/

namespace Sys2Proof.Machine

/-- The slots of the register file at reset (R35). -/
theorem resetRegs_getElem (p : Params) {n : Nat} (hn : n < 32) :
    (resetRegs p)[n] = if n = 2 then p.stackBase else if n = 0 then 0#32 else p.rfInit[n] := by
  unfold resetRegs
  simp only [Vector.getElem_set, eq_comm (a := n)]

/-- The reset state is well made: its pipeline is empty and its FSM idle (R431). -/
theorem State.resetWith_wellMade (p : Params) {image : Memory} (env : Env) (himage : image.wf = true) :
    (State.resetWith p image env).WellMade where
  mem := himage
  x0 := resetRegs_getElem p (n := 0) (by decide)
  fStall := rfl
  dStall := rfl
  eStall := rfl
  mStall := rfl
  fetched := by intro f h; cases h
  decoded := by intro d h; cases h
  executed := by intro e h; cases h
  saved := fun h => absurd rfl h
  held := fun _ => rfl

end Sys2Proof.Machine

open Sys2Proof Sys2Proof.Machine

/-- Settles O56: the coherence of each of the three operands, which `State.Cycles.operand_coherent` shows for all alike. -/
theorem operandsAreCoherent : Obligations.OperandsAreCoherent := by
  intro s t hs hx0 h v d k hv hd hk
  exact ⟨h.operand_coherent (o := .first) hs hx0 hv hd hk, h.operand_coherent (o := .second) hs hx0 hv hd hk,
    h.operand_coherent (o := .third) hs hx0 hv hd hk⟩

/-- Settles O53: everything but the register file is a field of the reset state as it stands. -/
theorem resetState : Obligations.ResetState := by
  intro p image env s
  have hdefault : ∀ r : Fin 32, Params.default.rfInit[r] = 0#32 := fun r => Vector.getElem_replicate r.isLt
  refine ⟨rfl, resetRegs_getElem p (n := 0) (by decide), resetRegs_getElem p (n := 2) (by decide), fun r h0 h2 => ?_,
    rfl, rfl, rfl, rfl, rfl, rfl, rfl, rfl, rfl, rfl, rfl, rfl, rfl, rfl, rfl, rfl, hdefault⟩
  have h2' : r.val ≠ 2 := fun h => h2 (Fin.ext h)
  have h0' : r.val ≠ 0 := fun h => h0 (Fin.ext h)
  exact (resetRegs_getElem p r.isLt).trans ((if_neg h2').trans (if_neg h0'))

/-- Settles O54: the reset state is well made, and its forward-fetcher flag is down. -/
theorem invariantAtReset : Obligations.InvariantAtReset := by
  have hreset : ∀ (p : Params) (image : Memory) (env : Env), image.wf = true → (State.resetWith p image env).inv = true :=
    fun p _ env himage => State.inv_iff.2 ⟨State.resetWith_wellMade p env himage, fun _ => rfl⟩
  exact ⟨hreset Params.default [] Env.empty rfl, hreset⟩

end

section
/-! SUPPORT. The stall FSM in a completed cycle (R370 to R375): what a claim saves and arms, what it counts, and what becomes of the
forward-fetcher flag. -/

namespace Sys2Proof.Machine

variable {s t u : State} {c : CycleOut} {q : Claim} {mn : Option MRec} {fx : Effects}

/-- A claim saves the cycle's decode input and fetch address, a control hazard or not (R371, R375). -/
theorem State.nextFsm_saved_of_claim (h : c.haz.claim = some q) :
    (u.nextFsm c).saved = u.f.content ∧ (u.nextFsm c).restorePC = u.pc := by
  unfold State.nextFsm StallFsm.standDown StallFsm.arm
  rw [h]
  cases c.exe.ctrl <;> exact ⟨rfl, rfl⟩

/-- After a completed cycle the forward-fetcher flag stands only with three cycles to go (R371, R373, R375). -/
theorem State.nextFsm_flag (h : (u.nextFsm c).countdown ≠ 3#2) : (u.nextFsm c).forwardFetcher = false := by
  cases hctrl : c.exe.ctrl with
  | some target => exact (State.nextFsm_of_hazard hctrl).2
  | none =>
    cases hclaim : c.haz.claim with
    | some q =>
      rw [State.nextFsm_of_claim hctrl hclaim] at h ⊢
      exact beq_eq_false_iff_ne.2 h
    | none => rw [State.nextFsm_of_none hctrl hclaim]

/-- A completed cycle with the Memory stage's result at hand. -/
theorem State.Cycles.eq_complete (h : s.Cycles t) (hm : s.cycleStart.MemoryDone mn fx) :
    t = s.cycleStart.complete (s.cycleStart.stages mn fx) := by
  obtain ⟨-, -, mn', fx', hm', -, rfl⟩ := h.cases
  obtain ⟨rfl, rfl⟩ := hm'.unique hm
  rfl

/-- A claim counts in its class alone; the data hazards also count the tiers that forwarded (R342, R360). -/
theorem Counters.cycle_of_claim (n : Counters) (retire latency : Nat) (h : c.haz.claim = some q) :
    (q.cls = .memory → (n.cycle c retire latency).memoryHazardCount = n.memoryHazardCount + 1) ∧
      (q.cls = .data → (n.cycle c retire latency).memoryHazardCount = n.memoryHazardCount ∧
        n.dataHazardCount + 1 ≤ (n.cycle c retire latency).dataHazardCount) := by
  unfold Counters.cycle
  rw [h]
  refine ⟨fun hq => by simp [hq], fun hq => ⟨by simp [hq], ?_⟩⟩
  simp only [hq, Option.map_some, if_true]
  omega

end Sys2Proof.Machine

open Sys2Proof Sys2Proof.Machine

/-- Settles O44: each clause is what steps 4 to 8 make of a claim in `D`, in `F`, in the FSM or in the counters. -/
theorem claimArmsReplay : Obligations.ClaimArmsReplay := by
  intro s t c mn fx h hm hc
  obtain rfl := h.eq_complete hm
  rw [← s.cycleStart_haz mn fx] at hc
  rw [State.complete_fsm, State.cycleStart_complete_counters]
  obtain ⟨hsaved, hpc⟩ := State.nextFsm_saved_of_claim (u := s.cycleStart) hc
  obtain ⟨hmemory, hdata⟩ := Counters.cycle_of_claim s.counters s.retires
    ((s.cycleStart.stages mn fx).dec.env.drawLatencies (s.cycleStart.stages mn fx).fx.accesses).1 hc
  refine ⟨State.nextD_of_claim hc, fun hlen => ?_, fun hlen hstall hflag hctrl => ?_, by rw [hsaved, s.cycleStart_f],
    by rw [hpc, s.cycleStart_pc], fun hctrl => ?_, hmemory, hdata⟩
  · simp [State.nextF, claimBubblesF, hc, hlen]
  · have hctrl' : (s.cycleStart.stages mn fx).exe.ctrl = none := hctrl
    have hredirect : (s.cycleStart.stages mn fx).redirect = none := by
      rw [← Option.isNone_iff_eq_none, ← Option.isSome_eq_false_iff, CycleOut.redirect, redirectTarget_isSome, hc]
      rfl
    rw [State.complete_f_content (by simpa using hstall), hctrl', hredirect]
    simp only [State.cycleStart_fsm, State.restoreOrTick_forwardFetcher, hflag, hc, claimBubblesF, hlen]
    rfl
  · rw [State.nextFsm_of_claim hctrl hc]
    exact ⟨rfl, fun hlen => by simp [hlen]⟩

/-- Settles O46. -/
theorem forwardFetcherSuppresses : Obligations.ForwardFetcherSuppresses := by
  intro s t h hflag
  obtain ⟨-, -, mn, fx, -, -, rfl⟩ := h.cases
  exact ⟨by simp [State.nextF, hflag], State.nextFsm_flag⟩

end

section
/-! SUPPORT. The hazard tiers in full (R350 to R361): the claim that each makes without forwarding, and with forwarding which producer
supplies each register, under either `X0_TRANSIENT`. -/

namespace Sys2Proof.Machine

variable {d : DRec} {par : Params} {p : Producer} {q : Option Producer}

/-! ### Without forwarding (R357 to R361) -/

/-- The consumer depends on the producer, if there is one (R352). -/
def DRec.dependsOn (d : DRec) (q : Option Producer) : Bool :=
  q.any (fun p => p.writeReg && p.dest != 0#5 && d.reads p.dest)

/-- The class of a claim that the producer makes (R360). -/
def Producer.classOf (q : Option Producer) : ClaimClass := if q.any (·.loadClass) then .memory else .data

/-- The claim of `n` cycles that a producer makes without forwarding (R357 to R359). -/
def DRec.claimOf (d : DRec) (n : BitVec 2) (q : Option Producer) : Option Claim :=
  if d.dependsOn q then some ⟨n, Producer.classOf q⟩ else none

/-- The consumer as it was decoded, and the claim made so far: what the tiers pass on without forwarding. -/
def Hazard.waiting (d : DRec) (c : Option Claim) : Hazard := { dn := d, claim := c, supplied := [], fwdTiers := 0 }

/-- A producer of `x0` makes no claim (R352). -/
theorem DRec.claimOf_x0 (n : BitVec 2) (h : p.dest = 0#5) : d.claimOf n (some p) = none := by
  simp [DRec.claimOf, DRec.dependsOn, h]

/-- A tier that claims on a match leaves the claim that stands, or makes its own (R360). -/
theorem Hazard.waiting_optional {tier : Hazard → Params → Producer → Hazard} {n : BitVec 2} {c : Option Claim}
    (htier : ∀ h p, tier h par p = if h.matched p then h.claims n p else h) (q : Option Producer) :
    (Hazard.waiting d c).optional tier par q = Hazard.waiting d (c.or (d.claimOf n q)) := by
  cases q with
  | none => simp [Hazard.optional, DRec.claimOf, DRec.dependsOn]
  | some p =>
    have hmatch : (Hazard.waiting d c).matched p = d.dependsOn (some p) := rfl
    have hclass : p.claimClass = Producer.classOf (some p) := rfl
    rw [Hazard.optional, htier, hmatch, DRec.claimOf, Hazard.claims, hclass]
    cases c <;> split_ifs <;> rfl

/-- Without forwarding no operand changes and the first claim wins, of 3 cycles in Execute, 2 in Memory and 1 in WriteBack. -/
theorem hazardTiers_of_no_forwarding (hf : par.forwarding = false) (q1 q2 q3 : Option Producer) :
    hazardTiers par d q1 q2 q3 =
      Hazard.waiting d (((d.claimOf 3#2 q1).or (d.claimOf 2#2 q2)).or (d.claimOf 1#2 q3)) := by
  have h1 : ∀ h p, Hazard.tier1 h par p = if h.matched p then h.claims 3#2 p else h := by simp [Hazard.tier1, hf]
  have h2 : ∀ h p, Hazard.tier2 h par p = if h.matched p then h.claims 2#2 p else h := by
    simp [Hazard.tier2, Hazard.tierLater, hf]
  have h3 : ∀ h p, Hazard.tier3 h par p = if h.matched p then h.claims 1#2 p else h := by
    simp [Hazard.tier3, Hazard.tierLater, hf]
  change (((Hazard.waiting d none).optional Hazard.tier1 par q1).optional Hazard.tier2 par q2).optional Hazard.tier3 par q3 = _
  rw [Hazard.waiting_optional h1, Hazard.waiting_optional h2, Hazard.waiting_optional h3, Option.none_or]

/-! ### With forwarding (R352 to R356, R358 to R360) -/

/-- The producer, if there is one, writes `r`, where `x0` counts only if `zero` says so (R352, R353). -/
def Producer.offers (zero : Bool) (q : Option Producer) (r : RegIdx) : Bool :=
  q.any (fun p => p.writeReg && p.dest == r && (zero || r != 0#5))

/-- A producer in Execute supplies `r`: it writes `r`, which is not `x0`, and is not load-class (R355, R356). -/
def Producer.offersInExecute (q : Option Producer) (r : RegIdx) : Bool :=
  Producer.offers false q r && !(q.any (·.loadClass))

/-- The offers are those of a producer that is there, for its destination. -/
def Producer.OffersDest (q : Option Producer) (offer : RegIdx → Bool) : Prop :=
  ∀ r, offer r = true → ∃ p, q = some p ∧ p.dest = r

theorem Producer.offers_dest (zero : Bool) (q : Option Producer) : Producer.OffersDest q (Producer.offers zero q) := by
  intro r h
  obtain ⟨p, rfl, hp⟩ := (Option.any_eq_true _ _).1 h
  simp only [Bool.and_eq_true, beq_iff_eq] at hp
  exact ⟨p, rfl, hp.1.2⟩

theorem Producer.offersInExecute_dest (q : Option Producer) : Producer.OffersDest q (Producer.offersInExecute q) :=
  fun r h => Producer.offers_dest false q r (Bool.and_eq_true_iff.1 h).1

/-- The value that a tier has for a register that the consumer reads. -/
def DRec.takes (d : DRec) (offer : RegIdx → Bool) (q : Option Producer) (r : RegIdx) : Option Word :=
  if offer r && d.reads r then q.map (·.value) else none

theorem DRec.takes_isSome {offer : RegIdx → Bool} (ho : Producer.OffersDest q offer) (r : RegIdx) :
    (d.takes offer q r).isSome = (offer r && d.reads r) := by
  unfold DRec.takes
  split_ifs with h
  · obtain ⟨p, rfl, -⟩ := ho r (Bool.and_eq_true_iff.1 h).1
    exact h.symm
  · exact (Bool.eq_false_of_not_eq_true h).symm

/-- The value of a register that the consumer reads, when the tier comes before what gives `w`. -/
theorem DRec.takes_getD {offer : RegIdx → Bool} (ho : Producer.OffersDest q offer) {r : RegIdx} (hr : d.reads r = true)
    (old w : Word) : (d.takes offer q r).getD w = if offer r then (q.map (·.value)).getD old else w := by
  unfold DRec.takes
  rw [hr, Bool.and_true]
  split_ifs with h
  · obtain ⟨p, rfl, -⟩ := ho r h
    rfl
  · rfl

/-- The value that the youngest producer has for a register that the consumer reads (R354), `x0` from the later two only, and only if
`zero` says so. -/
def DRec.found (d : DRec) (zero : Bool) (q1 q2 q3 : Option Producer) (r : RegIdx) : Option Word :=
  ((d.takes (Producer.offersInExecute q1) q1 r).or (d.takes (Producer.offers zero q2) q2 r)).or
    (d.takes (Producer.offers zero q3) q3 r)

theorem DRec.found_getD (zero : Bool) (q1 q2 q3 : Option Producer) {r : RegIdx} (hr : d.reads r = true) (old : Word) :
    (d.found zero q1 q2 q3 r).getD old =
      if Producer.offersInExecute q1 r then (q1.map (·.value)).getD old
      else if Producer.offers zero q2 r then (q2.map (·.value)).getD old
      else if Producer.offers zero q3 r then (q3.map (·.value)).getD old else old := by
  rw [DRec.found, Option.getD_or, Option.getD_or, DRec.takes_getD (Producer.offersInExecute_dest q1) hr old,
    DRec.takes_getD (Producer.offers_dest zero q2) hr old, DRec.takes_getD (Producer.offers_dest zero q3) hr old]

/-- Execute, Memory and WriteBack supply a register that the consumer reads, each unless an older-checked tier does (R354). -/
def DRec.suppliedByExecute (d : DRec) (q1 : Option Producer) (r : RegIdx) : Bool := Producer.offersInExecute q1 r && d.reads r

def DRec.suppliedByMemory (d : DRec) (zero : Bool) (q1 q2 : Option Producer) (r : RegIdx) : Bool :=
  Producer.offers zero q2 r && d.reads r && !(d.suppliedByExecute q1 r)

def DRec.suppliedByWriteBack (d : DRec) (zero : Bool) (q1 q2 q3 : Option Producer) (r : RegIdx) : Bool :=
  Producer.offers zero q3 r && d.reads r && !(d.suppliedByExecute q1 r) && !(d.suppliedByMemory zero q1 q2 r)

/-- A tier counts if it supplies some register (R342). -/
def tierCount (supplies : RegIdx → Bool) : Nat := if ∃ r, supplies r = true then 1 else 0

/-- A tier with a producer: it forwards what it offers, if the consumer reads it and no tier has supplied it (R354). -/
def Hazard.pass (h : Hazard) (offer : Bool) (p : Producer) : Hazard :=
  if offer && h.dn.reads p.dest && !(h.supplied.contains p.dest) then h.forward p else h

/-- `h` carries on the consumer `d`, to which `n` tiers have supplied the registers of `found` with its values. -/
structure Hazard.Supplies (h : Hazard) (d : DRec) (found : RegIdx → Option Word) (n : Nat) : Prop where
  dn : d.ReOperanded h.dn
  supplied : ∀ r, r ∈ h.supplied ↔ (found r).isSome = true
  operand : ∀ (o : Operand) (k : Kind), d.kind = .real k → o.readBy k = true →
    h.dn.operand o = (found (d.source o)).getD (d.operand o)
  tiers : h.fwdTiers = n

variable {h : Hazard} {found : RegIdx → Option Word} {n : Nat} {offer : RegIdx → Bool}

theorem Hazard.start_supplies (d : DRec) : (Hazard.start d).Supplies d (fun _ => none) 0 :=
  ⟨.refl d, fun _ => by simp [Hazard.start], fun _ _ _ _ => rfl, rfl⟩

theorem DRec.ReOperanded.reads {d' : DRec} (h : d.ReOperanded d') (r : RegIdx) : d'.reads r = d.reads r := by
  obtain ⟨a, b, c, rfl⟩ := h
  rfl

/-- A producer offers its destination alone. -/
theorem Producer.OffersDest.dest_eq (ho : Producer.OffersDest (some p) offer) {r : RegIdx} (hr : offer r = true) :
    p.dest = r := by
  obtain ⟨p', hp', rfl⟩ := ho r hr
  rw [Option.some.inj hp']

theorem DRec.takes_of_ne (ho : Producer.OffersDest (some p) offer) {r : RegIdx} (hr : p.dest ≠ r) :
    d.takes offer (some p) r = none := by
  have hno : offer r = false := Bool.eq_false_of_not_eq_true (mt ho.dest_eq hr)
  simp [DRec.takes, hno]

/-- Forwarding supplies what the tier takes, if that is new (R354). -/
theorem Hazard.Supplies.forward (hs : h.Supplies d found n) (ho : Producer.OffersDest (some p) offer)
    (htakes : d.takes offer (some p) p.dest = some p.value) (hnew : found p.dest = none) :
    (h.forward p).Supplies d (fun r => (found r).or (d.takes offer (some p) r)) (n + 1) := by
  refine ⟨hs.dn.forward _ _, fun r => ?_, fun o k hk hread => ?_, congrArg (· + 1) hs.tiers⟩
  · change r ∈ p.dest :: h.supplied ↔ _
    rw [List.mem_cons, hs.supplied]
    by_cases hr : p.dest = r
    · subst hr
      simp [htakes]
    · simp [DRec.takes_of_ne ho hr, Ne.symm hr]
  · change (h.dn.forward p.dest p.value).operand o = _
    rw [DRec.forward_operand (hs.dn.kind.trans hk), hread, hs.dn.source, hs.operand o k hk hread]
    by_cases hr : p.dest = d.source o
    · simp [← hr, hnew, htakes]
    · simp [DRec.takes_of_ne ho hr, Ne.symm hr]

/-- A tier that takes nothing new changes nothing. -/
theorem Hazard.Supplies.skip (hs : h.Supplies d found n) (ho : Producer.OffersDest q offer)
    (hold : ∀ r, (offer r && d.reads r && !(found r).isSome) = false) :
    h.Supplies d (fun r => (found r).or (d.takes offer q r))
      (n + tierCount fun r => offer r && d.reads r && !(found r).isSome) := by
  have hfound : (fun r => (found r).or (d.takes offer q r)) = found := funext fun r => by
    have hr := hold r
    rw [← DRec.takes_isSome ho] at hr
    cases hf : found r with
    | some w => rfl
    | none => simpa [hf] using hr
  have hcount : (tierCount fun r => offer r && d.reads r && !(found r).isSome) = 0 := by simp only [tierCount, hold]; simp
  rw [hfound, hcount]
  exact hs

/-- A tier adds what it takes to what was found before it, and counts if it takes anything new (R342, R354). -/
theorem Hazard.Supplies.pass (hs : h.Supplies d found n) (ho : Producer.OffersDest (some p) offer) :
    (h.pass (offer p.dest) p).Supplies d (fun r => (found r).or (d.takes offer (some p) r))
      (n + tierCount fun r => offer r && d.reads r && !(found r).isSome) := by
  have hcontains : h.supplied.contains p.dest = (found p.dest).isSome := by
    rw [Bool.eq_iff_iff, List.contains_iff_mem, hs.supplied]
  unfold Hazard.pass
  rw [hs.dn.reads, hcontains]
  split_ifs with hm
  · have hcount : (tierCount fun r => offer r && d.reads r && !(found r).isSome) = 1 := if_pos ⟨p.dest, hm⟩
    simp only [Bool.and_eq_true, Bool.not_eq_true', Option.isSome_eq_false_iff, Option.isNone_iff_eq_none] at hm
    obtain ⟨⟨hoffer, hreads⟩, hnew⟩ := hm
    rw [hcount]
    exact hs.forward ho (by simp [DRec.takes, hoffer, hreads]) hnew
  · refine hs.skip ho fun r => Bool.eq_false_of_not_eq_true fun hr => hm ?_
    obtain rfl : p.dest = r := ho.dest_eq (Bool.and_eq_true_iff.1 (Bool.and_eq_true_iff.1 hr).1).1
    exact hr

/-- The same for a tier whose stage may have no producer (R351), and which may claim. -/
theorem Hazard.Supplies.optional {tier : Hazard → Params → Producer → Hazard} (hs : h.Supplies d found n)
    (ho : Producer.OffersDest q offer)
    (htier : ∀ p, q = some p → ∃ c, tier h par p = { h.pass (offer p.dest) p with claim := c }) :
    (h.optional tier par q).Supplies d (fun r => (found r).or (d.takes offer q r))
      (n + tierCount fun r => offer r && d.reads r && !(found r).isSome) := by
  cases q with
  | none =>
    refine hs.skip ho fun r => Bool.eq_false_of_not_eq_true fun hr => ?_
    obtain ⟨p, hp, -⟩ := ho r (Bool.and_eq_true_iff.1 (Bool.and_eq_true_iff.1 hr).1).1
    cases hp
  | some p =>
    obtain ⟨c, hc⟩ := htier p rfl
    rw [Hazard.optional, hc]
    exact { hs.pass ho with }

/-- Tier 1 of a core with forwarding (R355, R356): it forwards, unless its producer is load-class, for which it claims 2. -/
theorem Hazard.tier1_of_forwarding (hf : par.forwarding = true) (d : DRec) (p : Producer) :
    (Hazard.start d).tier1 par p = { (Hazard.start d).pass (Producer.offersInExecute (some p) p.dest) p with
      claim := if p.loadClass && Producer.offers false (some p) p.dest && d.reads p.dest then some ⟨2#2, .memory⟩ else none } := by
  have hmatch : (Hazard.start d).matched p = (Producer.offers false (some p) p.dest && d.reads p.dest) := by
    simp [Hazard.matched, Producer.offers, Hazard.start]
  have hpass : ∀ b, (Hazard.start d).pass b p =
      if b && d.reads p.dest then (Hazard.start d).forward p else Hazard.start d := by
    simp [Hazard.pass, Hazard.start]
  unfold Hazard.tier1
  rw [hmatch, hf, hpass, Producer.offersInExecute, Option.any_some]
  generalize Producer.offers false (some p) p.dest = b
  cases hl : p.loadClass with
  | false =>
    simp only [Bool.not_false, Bool.and_true, Bool.false_and, Bool.false_eq_true, if_false, if_true]
    split_ifs <;> rfl
  | true =>
    simp only [Bool.not_true, Bool.and_false, Bool.false_and, Bool.true_and, Bool.false_eq_true, if_false, if_true]
    split_ifs
    · simp [Hazard.claims, Hazard.start, Producer.claimClass, hl]
    · rfl

/-- Tiers 2 and 3 of a core with forwarding (R353, R354, R358, R359). -/
theorem Hazard.tierLater_of_forwarding (hf : par.forwarding = true) (h : Hazard) (m : BitVec 2) (p : Producer) :
    h.tierLater par m p = h.pass (Producer.offers par.x0Transient (some p) p.dest) p := by
  have hmatch : h.laterMatch par.x0Transient p =
      (Producer.offers par.x0Transient (some p) p.dest && h.dn.reads p.dest && !(h.supplied.contains p.dest)) := by
    simp [Hazard.laterMatch, Producer.offers]
  unfold Hazard.tierLater Hazard.pass
  rw [if_pos hf, hmatch]

/-- A tier that passes on makes no claim. -/
theorem Hazard.pass_claim (h : Hazard) (b : Bool) (p : Producer) : (h.pass b p).claim = h.claim := by
  unfold Hazard.pass
  split_ifs <;> rfl

theorem Hazard.tierLater_optional_claim (hf : par.forwarding = true) (h : Hazard) (m : BitVec 2) (q : Option Producer) :
    (h.optional (fun h par p => h.tierLater par m p) par q).claim = h.claim := by
  cases q with
  | none => rfl
  | some p => exact (congrArg Hazard.claim (Hazard.tierLater_of_forwarding hf h m p)).trans (h.pass_claim _ p)

/-- Tier 1 claims 2 cycles, class Memory, for a load-class producer that the consumer depends on (R356). -/
theorem Hazard.tier1_optional_claim (hf : par.forwarding = true) (d : DRec) (q : Option Producer) :
    ((Hazard.start d).optional Hazard.tier1 par q).claim =
      if q.any (fun p => p.loadClass && Producer.offers false q p.dest && d.reads p.dest) then some ⟨2#2, .memory⟩ else none := by
  cases q with
  | none => rfl
  | some p => exact congrArg Hazard.claim (Hazard.tier1_of_forwarding hf d p)

/-- With forwarding only a load-class producer in Execute makes a claim (R356, R358, R359). -/
theorem hazardTiers_claim_of_forwarding (hf : par.forwarding = true) (d : DRec) (q1 q2 q3 : Option Producer) :
    (hazardTiers par d q1 q2 q3).claim =
      if q1.any (fun p => p.loadClass && Producer.offers false q1 p.dest && d.reads p.dest) then some ⟨2#2, .memory⟩ else none := by
  rw [← Hazard.tier1_optional_claim hf d q1]
  exact (Hazard.tierLater_optional_claim hf _ 1#2 q3).trans (Hazard.tierLater_optional_claim hf _ 2#2 q2)

/-- With forwarding the youngest producer that offers a register supplies it, and the tiers that supply one count. -/
theorem hazardTiers_supplies (hf : par.forwarding = true) (d : DRec) (q1 q2 q3 : Option Producer) :
    (hazardTiers par d q1 q2 q3).Supplies d (d.found par.x0Transient q1 q2 q3)
      (tierCount (d.suppliedByExecute q1) + tierCount (d.suppliedByMemory par.x0Transient q1 q2) +
        tierCount (d.suppliedByWriteBack par.x0Transient q1 q2 q3)) := by
  have h1 := (Hazard.start_supplies d).optional (Producer.offersInExecute_dest q1) fun p hp =>
    ⟨_, hp ▸ Hazard.tier1_of_forwarding hf d p⟩
  have h2 := h1.optional (tier := Hazard.tier2) (Producer.offers_dest par.x0Transient q2) fun p hp =>
    ⟨_, hp ▸ Hazard.tierLater_of_forwarding hf _ 2#2 p⟩
  have h3 := h2.optional (tier := Hazard.tier3) (Producer.offers_dest par.x0Transient q3) fun p hp =>
    ⟨_, hp ▸ Hazard.tierLater_of_forwarding hf _ 1#2 p⟩
  have hmem : ∀ r, (Producer.offers par.x0Transient q2 r && d.reads r &&
      !(d.takes (Producer.offersInExecute q1) q1 r).isSome) = d.suppliedByMemory par.x0Transient q1 q2 r := fun r => by
    rw [DRec.takes_isSome (Producer.offersInExecute_dest q1)]
    rfl
  have hwb : ∀ r, (Producer.offers par.x0Transient q3 r && d.reads r && !((d.takes (Producer.offersInExecute q1) q1 r).or
      (d.takes (Producer.offers par.x0Transient q2) q2 r)).isSome) = d.suppliedByWriteBack par.x0Transient q1 q2 q3 r := fun r => by
    rw [Option.isSome_or, DRec.takes_isSome (Producer.offersInExecute_dest q1), DRec.takes_isSome (Producer.offers_dest _ q2)]
    change (_ && !(d.suppliedByExecute q1 r || _)) = (_ && !(d.suppliedByExecute q1 r) && !(_ && !(d.suppliedByExecute q1 r)))
    cases d.suppliedByExecute q1 r <;> simp
  simp only [Option.none_or, Option.isSome_none, Bool.not_false, Bool.and_true, Nat.zero_add, hmem, hwb] at h3
  exact h3

end Sys2Proof.Machine

open Sys2Proof Sys2Proof.Machine

/-- Settles O47: the tiers supply what the youngest producers offer, which is what each operand that is read takes. -/
theorem forwardingPrecedence : Obligations.ForwardingPrecedence := by
  intro p d k p1 p2 p3 hf hk h hit value supplies1 supplies2 supplies3
  have hs := hazardTiers_supplies hf d p1 p2 p3
  have hoperand : ∀ o : Operand, h.dn.operand o = if o.readBy k then value (d.source o) (d.operand o) else d.operand o := by
    intro o
    cases ho : o.readBy k with
    | false => exact hazardTiers_operand_of_not_read _ _ _ _ hk ho
    | true => exact (hs.operand o k hk ho).trans (DRec.found_getD _ p1 p2 p3 (DRec.reads_source hk ho) _)
  exact ⟨hazardTiers_claim_of_forwarding hf d p1 p2 p3, hs.tiers, hoperand .first, hoperand .second, hoperand .third⟩

/-- Settles O48: each tier leaves the consumer and the claim that stands. -/
theorem claimsWithoutForwarding : Obligations.ClaimsWithoutForwarding := by
  intro p d p1 p2 p3 hf h dep cls
  have hh : h = _ := hazardTiers_of_no_forwarding hf p1 p2 p3
  rw [hh]
  refine ⟨rfl, rfl, ?_⟩
  change ((if dep p1 then _ else none).or (if dep p2 then _ else none)).or (if dep p3 then _ else none) = _
  cases dep p1 <;> cases dep p2 <;> rfl

/-- Settles O49: what the tiers find for `x0` is the offer of Memory, else that of WriteBack; a match asks for another destination than
`x0`; and no write reaches slot 0. -/
theorem x0TransientForwards : Obligations.X0TransientForwards := by
  refine ⟨fun p d k p1 p2 p3 q hf hz hk hq0 hqw hq => ?_, fun p d q hq0 => ?_, fun p d q2 q3 hf h2 h3 => ?_, fun s t h => ?_⟩
  · have hoperand : ∀ o : Operand, o.readBy k = true → d.source o = 0#5 → (hazardTiers p d p1 p2 p3).dn.operand o = q.value := by
      intro o ho hsource
      have hreads : d.reads 0#5 = true := hsource ▸ DRec.reads_source hk ho
      rw [(hazardTiers_supplies hf d p1 p2 p3).operand o k hk ho, hsource, DRec.found_getD _ _ _ _ hreads]
      have hexecute : Producer.offersInExecute p1 0#5 = false := by
        simp [Producer.offersInExecute, Producer.offers]
      have hoffer : Producer.offers p.x0Transient (some q) 0#5 = true := by simp [Producer.offers, hz, hq0, hqw]
      rw [hexecute]
      rcases hq with rfl | ⟨hp2, rfl⟩
      · rw [hoffer]
        rfl
      · have hmemory : Producer.offers p.x0Transient p2 0#5 = false := by
          cases p2 with
          | none => rfl
          | some p2 =>
            have hno : (p2.writeReg && p2.dest == 0#5) = false := by rwa [Option.all_some, Bool.not_eq_true'] at hp2
            rw [Producer.offers, Option.any_some, hno, Bool.false_and]
        rw [hoffer, hmemory]
        rfl
    exact ⟨hoperand .first, hoperand .second, hoperand .third⟩
  · have hstart : hazardTiers p d (some q) none none = Hazard.start d := by
      have hmatch : (Hazard.start d).matched q = false := by simp [Hazard.matched, hq0]
      change (Hazard.start d).tier1 p q = _
      rw [Hazard.tier1, hmatch]
      rfl
    rw [hstart]
    exact ⟨rfl, rfl⟩
  · rw [hazardTiers_of_no_forwarding hf, DRec.claimOf_x0 _ h2, DRec.claimOf_x0 _ h3]
    rfl
  · obtain ⟨-, -, mn, fx, -, -, rfl⟩ := h.cases
    exact ⟨State.readReg_x0 _, by simp⟩

end

section
/-! SUPPORT. An instruction that is alone in the pipeline, from the bytes at `pc` to its register write: what each of its five cycles
makes of it (R322 to R328, R346, R432). -/

namespace Sys2Proof

/-- Four bytes, the first at the lowest address, are the word with the first lowest (R83, R110). -/
theorem wordOfBytes_eq_append (b0 b1 b2 b3 : Byte) : wordOfBytes b0 b1 b2 b3 = b3 ++ b2 ++ b1 ++ b0 := by
  unfold wordOfBytes
  rw [putField_or_putField 32 _ b2 16, putField_or_putField 32 _ b1 8, putField_or_putField 32 _ b0 0, putField_self]

/-- What the decoder reads from the four bytes at an address it reads from the word there (R110). -/
theorem decode_readLE_of_decodeBytes {ms : MSet} {mem : Machine.Memory} {a : Nat} {i : Instr}
    (h : decodeBytes ms [mem.read a, mem.read (a + 1), mem.read (a + 2), mem.read (a + 3)] = .ok (i, [])) :
    decode ms (mem.readLE a 4) = .ok i := by
  rw [decodeBytes, wordOfBytes_eq_append, ← Machine.Memory.readLE_four] at h
  cases hd : decode ms (mem.readLE a 4) with
  | error r => rw [hd] at h; cases h
  | ok j => rw [hd] at h; cases h; rfl

end Sys2Proof

namespace Sys2Proof.Machine

variable {s t u : State} {d : DRec} {e : ERec} {m : MRec} {k : Kind} {i : Instr} {g : FRec}

/-! ### What every completed cycle keeps and makes -/

/-- `x0` is zero and no pipeline register is marked stalled (R31, R46). -/
structure State.Regular (s : State) : Prop where
  x0 : s.x[0] = 0#32
  fStall : s.f.stall = 0#2
  dStall : s.d.stall = 0#2
  eStall : s.e.stall = 0#2
  mStall : s.m.stall = 0#2

/-- A completed cycle keeps that, makes WriteBack's write and the effects of its Memory stage, latches what that gives into `M`, and
counts the retiring instruction (R328, R331, R334, R341). -/
theorem State.Cycles.outcome (h : s.Cycles t) (hs : s.Regular) :
    t.Regular ∧ ∃ mn fx, s.cycleStart.MemoryDone mn fx ∧ t.SameView (s.writeBackStage.applyEffects fx) ∧ t.m.content = mn ∧
      t.counters.instCount = s.counters.instCount + s.retires := by
  obtain ⟨-, -, mn, fx, hm, -, rfl⟩ := h.cases
  have hview := State.cycleStart_complete_sameView hs.x0 mn fx
  refine ⟨⟨?_, ?_, ?_, ?_, ?_⟩, mn, fx, hm, hview, Slot.commit_content _ (by simpa using hs.mStall), ?_⟩
  · simp
  · simpa [State.nextF] using Slot.commit_stall _ (by simpa using hs.fStall)
  · simpa [State.nextD] using Slot.commit_stall _ hs.dStall
  · simpa using Slot.commit_stall _ hs.eStall
  · simpa using Slot.commit_stall _ hs.mStall
  · rw [State.cycleStart_complete_counters]
    rfl

/-- With nothing in `E` and `M` it changes nothing that the program sees. -/
theorem State.Cycles.quiet (h : s.Cycles t) (hs : s.Regular) (he : s.e.content = none) (hm : s.m.content = none) :
    t.SameView s ∧ t.m.content = none ∧ t.counters.instCount = s.counters.instCount := by
  obtain ⟨-, mn, fx, hdone, hview, hlatch, hcount⟩ := h.outcome hs
  obtain ⟨rfl, rfl⟩ := hdone.of_bubble he
  rw [State.writeBackStage_of_none hm, State.applyEffects_nothing] at hview
  exact ⟨hview, hlatch, by simpa [State.retires, hm] using hcount⟩

/-- With a record in `E` and nothing in `M` it makes the effects of the record's access and latches what the access gives (R327). -/
theorem State.Cycles.accesses (h : s.Cycles t) (hs : s.Regular) (he : s.e.content = some e) (hm : s.m.content = none) :
    ∃ m fx, s.memoryAccess e = .done m fx ∧ t.SameView (s.applyEffects fx) ∧ t.m.content = some m ∧
      t.counters.instCount = s.counters.instCount := by
  obtain ⟨-, mn, fx, hdone, hview, hlatch, hcount⟩ := h.outcome hs
  obtain ⟨m, haccess, rfl⟩ := hdone.of_record he
  rw [State.writeBackStage_of_none hm] at hview
  exact ⟨m, fx, haccess, hview, hlatch, by simpa [State.retires, hm] using hcount⟩

/-- With a record in `M` it writes the record back and counts it, whatever is in `E` (R328, R341). -/
theorem State.Cycles.retires (h : s.Cycles t) (hs : s.Regular) (hm : s.m.content = some m) :
    t.x = (s.writeBack m).x ∧ t.counters.instCount = s.counters.instCount + 1 := by
  obtain ⟨-, mn, fx, -, hview, -, hcount⟩ := h.outcome hs
  rw [State.writeBackStage_of_some hm] at hview
  exact ⟨hview.x.trans (State.applyEffects_x ..), by simpa [State.retires, hm] using hcount⟩

/-! ### The first three cycles of an instruction alone in the pipeline -/

/-- With nothing in flight the fetched record comes to stand alone in `F` (R322). -/
theorem State.Cycles.fetches (h : s.Cycles t) (hs : s.Regular) (hidle : s.fsm.countdown = 0#2)
    (hflag : s.fsm.forwardFetcher = false) (hf : s.f.content = none) (hd : s.d.content = none) :
    t.f.content = some s.fetchStage.fn ∧ t.d.content = none ∧ t.e.content = none ∧ t.fsm.countdown = 0#2 := by
  have hen := h.execute.2 hs.eStall
  obtain ⟨-, -, mn, fx, -, -, rfl⟩ := h.cases
  have hstart := State.restoreOrTick_of_idle hidle
  have hexe : s.executeStage = ExecuteOut.bubble := State.executeStage_of_none hd
  have hctrl : (s.cycleStart.stages mn fx).exe.ctrl = none :=
    congrArg ExecuteOut.ctrl (s.cycleStart_executeStage.trans hexe)
  have hhaz := s.cycleStart.stages_haz_of_empty (mn := mn) (fx := fx) (by rw [s.cycleStart_f, hstart, hf])
  have hfetch : s.cycleStart.fetchStage = s.fetchStage := by
    simp [State.fetchStage, State.memRead, hstart]
  refine ⟨?_, ?_, hen.trans (congrArg ExecuteOut.en hexe), ?_⟩
  · rw [State.complete_f_content (by simpa using hs.fStall), hctrl, hhaz, CycleOut.redirect, hhaz]
    simp only [State.cycleStart_fsm, hstart, hflag, claimBubblesF, redirectTarget]
    exact congrArg (fun x => some x.fn) hfetch
  · rw [State.complete_d_content (by simpa using hs.dStall), hhaz, hctrl]
    rfl
  · rw [State.complete_fsm, State.nextFsm_of_none hctrl (by rw [hhaz])]
    simp [hstart, hidle]

/-- With an instruction alone in `F` its record comes to stand in `D`, with the operands of the register file (R324). -/
theorem State.Cycles.decodes (h : s.Cycles t) (hs : s.Regular) (hidle : s.fsm.countdown = 0#2) (hf : s.f.content = some g)
    (hp : g.poison = none) (hi : decode s.params.mSet g.inst = .ok i) (hd : s.d.content = none) (he : s.e.content = none)
    (hm : s.m.content = none) : (∃ b, t.d.content = some (s.recordOf g.pc g.inst i b)) ∧ t.e.content = none := by
  have hen := h.execute.2 hs.eStall
  obtain ⟨-, -, mn, fx, hdone, -, rfl⟩ := h.cases
  obtain ⟨rfl, rfl⟩ := hdone.of_bubble he
  have hexe : s.executeStage = ExecuteOut.bubble := State.executeStage_of_none hd
  have hdec : s.cycleStart.decodeStage.dn = some (s.recordOf g.pc g.inst i s.env.drawAnswer.1) := by
    rw [State.cycleStart_decodeStage (f := g) (by rw [State.restoreOrTick_of_idle hidle, hf]), ← State.decodeInstr_record]
    simp [State.decodeRecord, hp, hi]
  have hhaz : (s.cycleStart.stages none Effects.nothing).haz =
      { dn := some (s.recordOf g.pc g.inst i s.env.drawAnswer.1), claim := none, fwdTiers := 0 } := by
    rw [s.cycleStart_haz, hdec, s.cycleStart_executeStage, hexe, hm]
    rfl
  have hctrl : (s.cycleStart.stages none Effects.nothing).exe.ctrl = none :=
    congrArg ExecuteOut.ctrl (s.cycleStart_executeStage.trans hexe)
  refine ⟨⟨s.env.drawAnswer.1, ?_⟩, hen.trans (congrArg ExecuteOut.en hexe)⟩
  rw [State.complete_d_content (by simpa using hs.dStall), hhaz, hctrl]
  rfl

/-- With a record in `D` the rule of its kind raises nothing, and its record comes to stand in `E` (R325). -/
theorem State.Cycles.executes (h : s.Cycles t) (hs : s.Regular) (hd : s.d.content = some d) (hk : d.kind = .real k) :
    (executeKind k s.params d).event = none ∧ t.e.content = some ((executeKind k s.params d).record k d) := by
  obtain ⟨hevent, hen⟩ := h.execute
  rw [State.executeStage_of_some hd] at hevent hen
  obtain ⟨k', hk', he, -⟩ := executeRecord_of_no_event hevent
  obtain rfl : k = k' := DKind.real.inj (hk.symm.trans hk')
  exact ⟨he, (hen hs.eStall).trans (executeRecord_real hk he).1⟩

/-- Decode takes the same operands where the program sees the same. -/
theorem State.SameView.recordOf (h : s.SameView t) (pc inst : Word) (i : Instr) (b : Bool) :
    s.recordOf pc inst i b = t.recordOf pc inst i b := by
  unfold State.recordOf
  rw [State.snapshot_congr (State.readReg_congr h.x)]

/-- The three cycles from the bytes at `pc` on: with nothing in flight, the record that the instruction's meaning computes comes to
stand in `E`, and the program sees no change. -/
theorem State.Cycles.reachesExecute {s1 s2 s3 : State} (hs : s.Regular) (hidle : s.fsm.countdown = 0#2)
    (hflag : s.fsm.forwardFetcher = false)
    (hempty : s.f.content = none ∧ s.d.content = none ∧ s.e.content = none ∧ s.m.content = none)
    (hok : accessOk s.params s.pc 4 = true) (hi : decode s.params.mSet (s.mem.readLE s.pc.toNat 4) = .ok i)
    (h1 : s.Cycles s1) (h2 : s1.Cycles s2) (h3 : s2.Cycles s3) :
    s3.Regular ∧ s3.SameView s ∧ s3.counters.instCount = s.counters.instCount ∧ (s.executedAlone i).event = none ∧
      s3.e.content = some (s.recordAlone i) ∧ s3.m.content = none := by
  obtain ⟨hf, hd, he, hm⟩ := hempty
  obtain ⟨hs1, -⟩ := h1.outcome hs
  obtain ⟨hs2, -⟩ := h2.outcome hs1
  obtain ⟨hs3, -⟩ := h3.outcome hs2
  obtain ⟨hf1, hd1, he1, hidle1⟩ := h1.fetches hs hidle hflag hf hd
  obtain ⟨hview1, hm1, hcount1⟩ := h1.quiet hs he hm
  rw [State.fetchStage_fn, if_pos hok] at hf1
  obtain ⟨⟨b, hd2⟩, he2⟩ := h2.decodes hs1 hidle1 hf1 rfl (by rw [hview1.params, hi]) hd1 he1 hm1
  obtain ⟨hview2, hm2, hcount2⟩ := h2.quiet hs1 he1 hm1
  obtain ⟨hevent, he3⟩ := h3.executes hs2 hd2 State.recordOf_kind
  obtain ⟨hview3, hm3, hcount3⟩ := h3.quiet hs2 he2 hm2
  obtain ⟨hevent', hrecord, -⟩ := s.executeKind_recordOf s.params s.pc (s.mem.readLE s.pc.toNat 4) (encode i) i b s.env.drawAnswer.1
  rw [hview1.recordOf, (hview2.trans hview1).params] at hevent he3
  rw [← State.decodeInstr_record] at hevent' hrecord
  exact ⟨hs3, hview3.trans (hview2.trans hview1), hcount3.trans (hcount2.trans hcount1), hevent'.symm.trans hevent,
    he3.trans (congrArg some hrecord), hm3⟩

end Sys2Proof.Machine

open Sys2Proof Sys2Proof.Machine

/-- Settles O59: three cycles bring the instruction's record into `E`, the fourth makes the effects that its meaning makes, and the
fifth its register write. -/
theorem fiveCyclesRunTheBytesAtPC : Obligations.FiveCyclesRunTheBytesAtPC := by
  intro s s1 s2 s3 s4 s5 i hx hf hd he hm hidle hflag hok hbytes h1 h2 h3 h4 h5
  have hs : s.Regular := ⟨hx, by rw [hf]; rfl, by rw [hd]; rfl, by rw [he]; rfl, by rw [hm]; rfl⟩
  have hempty : s.f.content = none ∧ s.d.content = none ∧ s.e.content = none ∧ s.m.content = none := by
    rw [hf, hd, he, hm]
    exact ⟨rfl, rfl, rfl, rfl⟩
  obtain ⟨hs3, hview3, hcount3, hevent, he3, hm3⟩ :=
    State.Cycles.reachesExecute hs hidle hflag hempty hok (decode_readLE_of_decodeBytes hbytes) h1 h2 h3
  obtain ⟨m, fx, hdone, hview4, hm4, hcount4⟩ := h4.accesses hs3 he3 hm3
  obtain ⟨hs4, -⟩ := h4.outcome hs3
  obtain ⟨hx5, hcount5⟩ := h5.retires hs4 hm4
  have hexec : exec i s = .next (s.completeAlone i.kind (s.executedAlone i) (s.decodedAlone i) m fx) := by
    rw [exec_of_no_event hevent, ← hview3.memoryAccess, hdone]
    rfl
  have halone := s.completeAlone_sameView i m fx
  have hview : s4.SameView (s.applyEffects fx) := hview4.trans (hview3.applyEffects fx)
  refine ⟨_, hexec, by rw [State.completeAlone_status, h1.cases.1], ?_, ?_, ?_, ?_⟩
  · rw [hview.mem, halone.mem, State.writeBack_mem]
  · rw [hview.console, halone.console, State.writeBack_console]
  · rw [hx5, (hview.writeBack m).x, halone.x]
  · rw [hcount5, hcount4, hcount3]
    rfl

end
